-- ==== Sys2Proof/Word.lean ====
section
/-! DEFINITION. The words of the block: a byte (spec rule R9, "A byte is 8 bits") and a 12-bit command
word (rule R76). Nothing in the block is signed and nothing is wider than a byte except the command word,
the lookup result register and the packed report bus. -/

namespace Sys2Proof

/-- A byte (R9). -/
abbrev Byte := BitVec 8

/-- A command word `cmd[11:0]` (R76, R83: one format, one length). -/
abbrev CmdWord := BitVec 12

end Sys2Proof
end

