-- ==== Sys2Proof/Syntax.lean ====
section
/-! DEFINITION. The commands of the block, one constructor per row of spec/opcode_table.json (rule R77). An
operand is a whole byte, "used as it stands" (R76), and every one of the 256 values is admissible (R78). -/

namespace Sys2Proof

/-- The twelve commands (R77), in opcode order. -/
inductive Instr where
  /-- `LOOKUP sym` (R105). -/
  | lookup (sym : Byte)
  /-- `SETMOD m` (R122). -/
  | setmod (m : Byte)
  /-- `KEYDOWN sym` (R123). -/
  | keydown (sym : Byte)
  /-- `IDLE` (R124). -/
  | idle
  /-- `XCHG` (R126). -/
  | xchg
  /-- `PULSE sym` (R127). -/
  | pulse (sym : Byte)
  /-- `LEDDEC b` (R142). -/
  | leddec (b : Byte)
  /-- `SCAN` (R154). -/
  | scan
  /-- `DIAG` (R156). -/
  | diag
  /-- `CYCLE` (R158). -/
  | cycle
  /-- `RUN` (R159). -/
  | run
  /-- `LEDRX` (R143). -/
  | ledrx
  deriving DecidableEq, Repr

end Sys2Proof
end

