-- ==== Sys2Proof/Decode.lean ====
section
/-! DEFINITION. The command word, read and written (rules R76 to R79): the decoder, total on the 4096 words and
rejecting by name, the encoder, the opcode map as a table of rows, and the host's view of a word. -/

namespace Sys2Proof

/-- `op = cmd[11:8]` (R76). -/
def opField (w : CmdWord) : BitVec 4 := w.extractLsb' 8 4

/-- `arg = cmd[7:0]` (R76). -/
def argField (w : CmdWord) : Byte := w.extractLsb' 0 8

/-- The command word `op ‖ arg` (R76). -/
def cmdWord (op : BitVec 4) (arg : Byte) : CmdWord := op ++ arg

/-- Why a word is reserved (R79). -/
inductive Reserved where
  /-- Opcodes 0x0, 0xD, 0xE, 0xF, with any `arg`. -/
  | opcode (op : BitVec 4)
  /-- A command without operand, with `arg != 0x00`. -/
  | argument (op : BitVec 4) (arg : Byte)
  deriving DecidableEq, Repr

/-- A command without operand: its `arg` must be 0x00 (R77, mask 0xFFF). -/
def noOperand (w : CmdWord) (i : Instr) : Except Reserved Instr :=
  if argField w = 0x00 then .ok i else .error (.argument (opField w) (argField w))

/-- The decoder (R77, R78, R79). -/
def decode (w : CmdWord) : Except Reserved Instr :=
  match (opField w).toNat with
  | 0x1 => .ok (.lookup (argField w))
  | 0x2 => .ok (.setmod (argField w))
  | 0x3 => .ok (.keydown (argField w))
  | 0x4 => noOperand w .idle
  | 0x5 => noOperand w .xchg
  | 0x6 => .ok (.pulse (argField w))
  | 0x7 => .ok (.leddec (argField w))
  | 0x8 => noOperand w .scan
  | 0x9 => noOperand w .diag
  | 0xA => noOperand w .cycle
  | 0xB => noOperand w .run
  | 0xC => noOperand w .ledrx
  | _ => .error (.opcode (opField w))

/-- The encoder (R77). -/
def encode : Instr → CmdWord
  | .lookup sym => cmdWord 0x1 sym
  | .setmod m => cmdWord 0x2 m
  | .keydown sym => cmdWord 0x3 sym
  | .idle => cmdWord 0x4 0x00
  | .xchg => cmdWord 0x5 0x00
  | .pulse sym => cmdWord 0x6 sym
  | .leddec b => cmdWord 0x7 b
  | .scan => cmdWord 0x8 0x00
  | .diag => cmdWord 0x9 0x00
  | .cycle => cmdWord 0xA 0x00
  | .run => cmdWord 0xB 0x00
  | .ledrx => cmdWord 0xC 0x00

/-- A row of the opcode map: "a word `w` selects the row with `w & mask = match`" (R77). -/
structure OpcodeRow where
  mnemonic : String
  pattern : CmdWord
  mask : CmdWord
  deriving DecidableEq, Repr

/-- The opcode map of R77, written as the spec writes it. -/
def opcodeMap : List OpcodeRow :=
  [⟨"LOOKUP", 0x100, 0xF00⟩, ⟨"SETMOD", 0x200, 0xF00⟩, ⟨"KEYDOWN", 0x300, 0xF00⟩, ⟨"IDLE", 0x400, 0xFFF⟩,
   ⟨"XCHG", 0x500, 0xFFF⟩, ⟨"PULSE", 0x600, 0xF00⟩, ⟨"LEDDEC", 0x700, 0xF00⟩, ⟨"SCAN", 0x800, 0xFFF⟩,
   ⟨"DIAG", 0x900, 0xFFF⟩, ⟨"CYCLE", 0xA00, 0xFFF⟩, ⟨"RUN", 0xB00, 0xFFF⟩, ⟨"LEDRX", 0xC00, 0xFFF⟩]

/-- The word selects the row (R77). -/
def OpcodeRow.selects (row : OpcodeRow) (w : CmdWord) : Bool :=
  (w &&& row.mask) == row.pattern

/-- A command's mnemonic (R77). -/
def mnemonic : Instr → String
  | .lookup _ => "LOOKUP"
  | .setmod _ => "SETMOD"
  | .keydown _ => "KEYDOWN"
  | .idle => "IDLE"
  | .xchg => "XCHG"
  | .pulse _ => "PULSE"
  | .leddec _ => "LEDDEC"
  | .scan => "SCAN"
  | .diag => "DIAG"
  | .cycle => "CYCLE"
  | .run => "RUN"
  | .ledrx => "LEDRX"

/-- The bits of an instruction as the opcode table numbers them: the lowest `nbits` bits of `w`, the rest 0. -/
def tableBits (nbits w : Nat) : Nat := w % 2 ^ nbits

/-- The host's view of the decoder. The command port has twelve wires (R76), so a number of more than twelve
bits is no command word. -/
def decodeTableWord (nbits w : Nat) : Option Instr :=
  if tableBits nbits w < 2 ^ 12 then
    match decode (BitVec.ofNat 12 (tableBits nbits w)) with
    | .ok i => some i
    | .error _ => none
  else none

end Sys2Proof
end

