-- ==== Sys2Proof/Config.lean ====
section
/-! DEFINITION. What is fixed for one block: its parameters (spec rules R4 to R8) and the free values, that
is, what the spec leaves to the environment or to the platform. A free value is a constant with no body: no
proof can see what it is. The parameters are a plain record; State carries one, no step changes it (R53), and a
statement over every state is a statement over every configuration. -/

namespace Sys2Proof

/-- A key position (R4: `ROWS = 5`, `COLS = 7`; glossary: "(row, column) pair"). -/
structure Pos where
  row : Fin 5
  col : Fin 7
  deriving DecidableEq, Repr

/-- One value for each of the 35 key positions, row by row (R4, R50). -/
abbrev Grid (α : Type) := Vector (Vector α 7) 5

/-- `MOD_SELECT` (R8): which pressed modifier sweep 1 keeps. -/
inductive ModSelect where
  | last
  | first
  deriving DecidableEq, Repr

/-- `MOD_PASS` (R8): whether a held Ctrl or Alt reaches report byte 0. -/
inductive ModPass where
  | all
  | shiftOnly
  deriving DecidableEq, Repr

/-- The parameters of the block (R5 to R8). Which values are admissible is `Config.wf` of WellFormed.lean. -/
structure Config where
  /-- `SCT`, the scan-code ROM (R6, R50, R51). -/
  sct : Vector Byte 96
  /-- `LAYOUT`, the layout ROM (R7, R50, R52). -/
  layout : Grid Byte
  kShift : Byte
  kCtrl : Byte
  kAlt : Byte
  kEnter : Byte
  kTab : Byte
  /-- `K_CAPS`: open, "no rule of this spec reads it" (R5). -/
  kCaps : Byte
  modSelect : ModSelect
  modPass : ModPass
  deriving DecidableEq, Repr

/-- `K_NONE = 0x00`, the no-key sentinel (R5). -/
abbrev kNone : Byte := 0x00

/-- `USAGE_A = 0x04`, "the usage code of the character `'a'` (0x61), which the diagnostic injector emits as
a literal" (R4). -/
abbrev usageA : Byte := 0x04

/-- One sample of all inputs (R28), taken afresh at every step (R62). A `key_n` bit is `true` when the line
reads nonzero (not pressed); the bits at unbound positions stand for no wire and nothing reads them. -/
structure Sample where
  keyN : Grid Bool
  diagN : Bool
  hostCfg : Bool
  hostReady : Bool
  ack : Bool
  outReport : Byte
  cmdValid : Bool
  cmd : CmdWord
  rst : Bool
  deriving DecidableEq, Repr, Inhabited

/-- Free: the sample the environment supplies at the `n`-th step when State holds no script of samples for it
(R28: "the values are free"; R62). Log entry 1. -/
opaque Config.freeSample : Nat → Sample

/-- Free: the platform's choice for a key position ("`LAYOUT` is an OPEN parameter", R7). Log entry 3. -/
opaque Config.freeLayoutEntry : Pos → Byte

/-- Free: `K_CAPS`, "OPEN" (R5). Log entry 3. -/
opaque Config.freeCaps : Byte

/-- Free: the level of the debug indicator `LED[3]` after `n` steps, "which no rule writes" (R24). Log entry 6. -/
opaque Config.freeDebugLed : Nat → Bool

/-- Free: what stands on `tx_data` after `n` steps while `tx_valid` is low (R29 gives it a value only under the
pulse). Log entry 7. -/
opaque Config.freeTxData : Nat → BitVec 64

end Sys2Proof
end

