-- ==== Sys2Proof/Machine/Operands.lean ====
section
/-! DEFINITION. The pure functions of the HID Encoder: the class of a symbolic key value, its table index, its
usage code, the shift-needed predicate (rules R100 to R104), and the byte pair of a key-down report (R120, R121).
They read the configuration and their operands, and no state. -/

namespace Sys2Proof.Machine

/-- The three classes of a symbolic key value (R100). -/
inductive SymClass where
  /-- `C_NONE`: neither Enter, Tab nor an ASCII character. -/
  | none
  /-- `C_DIRECT`: Enter or Tab. -/
  | direct
  /-- `C_ASCII`: in [0x20, 0x7F] and neither Enter nor Tab. -/
  | ascii
  deriving DecidableEq, Repr

/-- `Class(sym)` (R100; the order of the tests is R71's). -/
def classify (c : Config) (sym : Byte) : SymClass :=
  if sym = c.kEnter ∨ sym = c.kTab then .direct
  else if 0x20 ≤ sym.toNat ∧ sym.toNat ≤ 0x7F then .ascii
  else .none

/-- The two-bit code of a class in `LK_CLASS` (R105). -/
def classCode : SymClass → BitVec 2
  | .none => 0b00
  | .direct => 0b01
  | .ascii => 0b10

/-- `Index(sym)` (R101): "defined only when `Class(sym) = C_ASCII`", a value in 0 to 95. -/
def symIndex (c : Config) (sym : Byte) : Option (Fin 96) :=
  match classify c sym with
  | .ascii =>
    if h : 0x20 ≤ sym.toNat ∧ sym.toNat ≤ 0x7F then some ⟨sym.toNat - 0x20, by omega⟩
    else none
  | .direct => none
  | .none => none

/-- A read of the scan-code ROM, `SCT[i]` (R50, R51). -/
def sctRead (c : Config) (i : Fin 96) : Byte :=
  c.sct.get i

/-- `Usage(sym)` (R102). The 0x00 of class `C_NONE` is the placeholder that only `LOOKUP` makes visible. -/
def usage (c : Config) (sym : Byte) : Byte :=
  match classify c sym with
  | .direct => sym
  | .ascii =>
    match symIndex c sym with
    | some i => sctRead c i
    | none => 0x00
  | .none => 0x00

/-- `NeedsShift(i)` (R103): the six ranges, from the index alone. -/
def needsShift (i : Fin 96) : Bool :=
  (1 ≤ i.val && i.val ≤ 6) || (8 ≤ i.val && i.val ≤ 11) || i.val == 26 || i.val == 28 ||
    (30 ≤ i.val && i.val ≤ 58) || i.val == 62 || i.val == 63 || (91 ≤ i.val && i.val ≤ 94)

/-- `Shift(sym)` (R104): false outside class `C_ASCII`. -/
def shiftNeeded (c : Config) (sym : Byte) : Bool :=
  match symIndex c sym with
  | some i => needsShift i
  | none => false

/-- `ModByte(m)` (R120): the byte a pending modifier contributes to report byte 0. -/
def modByte (c : Config) (m : Byte) : Byte :=
  match c.modPass with
  | .all => m
  | .shiftOnly => if m = c.kShift then c.kShift else 0x00

/-- `Format(sym, m)` (R121): the pair (report byte 0, report byte 2), or nothing for class `C_NONE`. -/
def formatKey (c : Config) (sym m : Byte) : Option (Byte × Byte) :=
  match classify c sym with
  | .none => none
  | .direct => some (modByte c m, sym)
  | .ascii =>
    if shiftNeeded c sym then some (c.kShift, usage c sym)
    else some (modByte c m, usage c sym)

/-- The 11 bits of the lookup result register, `class ‖ shift ‖ usage` (R25, R105). -/
def lookupResult (c : Config) (sym : Byte) : BitVec 11 :=
  classCode (classify c sym) ++ (BitVec.ofBool (shiftNeeded c sym) ++ usage c sym)

/-- `LK_CLASS = LKR[10:9]` (R25). -/
def lkClass (v : BitVec 11) : BitVec 2 := v.extractLsb' 9 2

/-- `LK_SHIFT = LKR[8]` (R25). -/
def lkShift (v : BitVec 11) : Bool := v.getLsbD 8

/-- `LK_USAGE = LKR[7:0]` (R25). -/
def lkUsage (v : BitVec 11) : Byte := v.extractLsb' 0 8

end Sys2Proof.Machine
end

