-- ==== Sys2Proof/Machine/Matrix.lean ====
section
/-! DEFINITION. The key matrix: the row-major order of the positions (rules R9, R52), the reads of the layout ROM
and of the key lines (R50, R152), and the two sweeps as functions of one sample (R152, R153). -/

namespace Sys2Proof.Machine

/-- "Row-major order ... the linear index of `(r, c)` is `7*r + c`" (R9). -/
def linearIndex (p : Pos) : Nat := 7 * p.row.val + p.col.val

/-- The 35 positions, `(0,0), (0,1), ..., (4,6)` (R9). -/
def positions : List Pos :=
  (List.finRange 5).flatMap fun r => (List.finRange 7).map fun c => ⟨r, c⟩

/-- The value a grid holds at a position. -/
def gridGet {α : Type} (g : Grid α) (p : Pos) : α :=
  (g.get p.row).get p.col

/-- The grid that holds `f p` at each position `p`. -/
def gridOf {α : Type} (f : Pos → α) : Grid α :=
  Vector.ofFn fun r => Vector.ofFn fun c => f ⟨r, c⟩

/-- A read of the layout ROM, `LAYOUT[r][c]` (R50, R52). -/
def layoutRead (c : Config) (p : Pos) : Byte :=
  gridGet c.layout p

/-- "0 = the switch is closed (pressed)" (R28; active-low, R152). -/
def pressed (keyN : Grid Bool) (p : Pos) : Bool :=
  !gridGet keyN p

/-- The value is one of {Shift, Ctrl, Alt} (R152). -/
def isModifier (c : Config) (v : Byte) : Bool :=
  v == c.kShift || v == c.kCtrl || v == c.kAlt

/-- The value is bound and no modifier: what sweep 2 considers (R153). -/
def isKey (c : Config) (v : Byte) : Bool :=
  v != kNone && !isModifier c v

/-- Sweep 1 keeps the value `v` of a pressed modifier beside the one it already has, `m` (R152). -/
def keepModifier (c : Config) (m v : Byte) : Byte :=
  match c.modSelect with
  | .last => v
  | .first => if m = kNone then v else m

/-- What sweep 1 records: the loop of R152, which starts from "none". -/
def sweepModifier (c : Config) (keyN : Grid Bool) : Byte :=
  positions.foldl
    (fun m p =>
      if isModifier c (layoutRead c p) && pressed keyN p then keepModifier c m (layoutRead c p)
      else m)
    kNone

/-- What sweep 2 finds: the value of the row-major-first pressed non-modifier key, if any (R153). -/
def sweepKey (c : Config) (keyN : Grid Bool) : Option Byte :=
  (positions.find? fun p => isKey c (layoutRead c p) && pressed keyN p).map (layoutRead c)

end Sys2Proof.Machine
end

