-- ==== Sys2Proof/WellFormed.lean ====
section
/-! DEFINITION. What is well formed: a command word (rules R77, R79) and a configuration (R5, R6, R7), which "a
model checks and otherwise refuses". An instruction of Syntax.lean has no check of its own: its operand is a byte
by its type, and "any of the 256 values" is admissible (R78). -/

namespace Sys2Proof

/-- The opcode is one of the twelve (R77). -/
def CmdWord.opcodeDefined (w : CmdWord) : Bool :=
  1 ≤ w.toNat / 256 && w.toNat / 256 ≤ 12

/-- The opcode takes an operand (R77, R78). -/
def CmdWord.takesOperand (w : CmdWord) : Bool :=
  [1, 2, 3, 6, 7].contains (w.toNat / 256)

/-- The word is defined, that is, not reserved (R79): its opcode is, and its `arg` is 0x00 where the command
takes no operand. -/
def CmdWord.defined (w : CmdWord) : Bool :=
  w.opcodeDefined && (w.takesOperand || w.toNat % 256 == 0)

/-- A byte lies in [0x20, 0x7F] (R4: `ASCII_BASE`, `ASCII_TOP`). -/
def inAscii (v : Byte) : Bool :=
  0x20 ≤ v.toNat && v.toNat ≤ 0x7F

/-- "`K_SHIFT`, `K_CTRL`, `K_ALT`, `K_NONE` are pairwise distinct; none of them equals `K_ENTER` or `K_TAB`;
... `K_ENTER != K_TAB`" (R5). -/
def Config.constantsDistinct (c : Config) : Bool :=
  decide [kNone, c.kShift, c.kCtrl, c.kAlt, c.kEnter, c.kTab].Nodup

/-- "none of them lies in [0x20, 0x7F]" (R5, of the three modifier constants; `K_NONE = 0x00` does not). -/
def Config.modifiersOutsideAscii (c : Config) : Bool :=
  !inAscii c.kShift && !inAscii c.kCtrl && !inAscii c.kAlt

/-- "`SCT[0x41] = 0x04` ... is normative and every admissible `SCT` has it" (R6). -/
def Config.sctHasA (c : Config) : Bool :=
  Machine.sctRead c 0x41 == 0x04

/-- A layout entry is admissible: "`K_NONE`, or one of `K_SHIFT`, `K_CTRL`, `K_ALT`, or a value `s` with
`Class(s) != C_NONE`" (R7). -/
def Config.entryOk (c : Config) (v : Byte) : Bool :=
  v == kNone || Machine.isModifier c v || Machine.classify c v != .none

/-- Every entry of the layout is admissible (R7). -/
def Config.layoutOk (c : Config) : Bool :=
  Machine.positions.all fun p => c.entryOk (Machine.layoutRead c p)

/-- The configuration is well formed (R5, R6, R7). -/
def Config.wf (c : Config) : Bool :=
  c.constantsDistinct && c.modifiersOutsideAscii && c.sctHasA && c.layoutOk

end Sys2Proof
end

