-- ==== Sys2Proof/Machine/Device.lean ====
section
/-! DEFINITION. The configuration of `State.reset`: the spec's default values where it gives one (rules R5, R6, R8,
R102) and free values where it leaves the parameter open (R5 `K_CAPS`, R7 `LAYOUT`). Log entries 2 and 3. -/

namespace Sys2Proof.Machine

/-- `DEFAULT_SCT` (R102), sixteen entries a line, index 0 first. -/
def defaultSct : Vector Byte 96 :=
  (#v[0x2C, 0x1E, 0x34, 0x20, 0x21, 0x22, 0x24, 0x34, 0x26, 0x27, 0x25, 0x2E, 0x36, 0x2D, 0x37, 0x38] : Vector Byte 16) ++
  (#v[0x27, 0x1E, 0x1F, 0x20, 0x21, 0x22, 0x23, 0x24, 0x25, 0x26, 0x33, 0x33, 0x36, 0x2E, 0x37, 0x38] : Vector Byte 16) ++
  (#v[0x1F, 0x04, 0x05, 0x06, 0x07, 0x08, 0x09, 0x0A, 0x0B, 0x0C, 0x0D, 0x0E, 0x0F, 0x10, 0x11, 0x12] : Vector Byte 16) ++
  (#v[0x13, 0x14, 0x15, 0x16, 0x17, 0x18, 0x19, 0x1A, 0x1B, 0x1C, 0x1D, 0x2F, 0x31, 0x30, 0x23, 0x2D] : Vector Byte 16) ++
  (#v[0x35, 0x04, 0x05, 0x06, 0x07, 0x08, 0x09, 0x0A, 0x0B, 0x0C, 0x0D, 0x0E, 0x0F, 0x10, 0x11, 0x12] : Vector Byte 16) ++
  (#v[0x13, 0x14, 0x15, 0x16, 0x17, 0x18, 0x19, 0x1A, 0x1B, 0x1C, 0x1D, 0x2F, 0x31, 0x30, 0x35, 0x00] : Vector Byte 16)

/-- The default parameters (R5, R6, R8) around a given layout. -/
def defaultConfig (layout : Grid Byte) : Config where
  sct := defaultSct
  layout := layout
  kShift := 0x02
  kCtrl := 0x01
  kAlt := 0x04
  kEnter := 0x28
  kTab := 0x2B
  kCaps := Config.freeCaps
  modSelect := .last
  modPass := .all

/-- The layout of `State.reset`: at each position whatever the platform chose, where that is admissible under the
default constants, and `K_NONE` where it is not (R7). Every admissible layout is of this form. -/
def openLayout : Grid Byte :=
  gridOf fun p =>
    if (defaultConfig (gridOf fun _ => kNone)).entryOk (Config.freeLayoutEntry p) then Config.freeLayoutEntry p
    else kNone

/-- The configuration of `State.reset`. -/
def resetConfig : Config := defaultConfig openLayout

end Sys2Proof.Machine
end

