-- ==== Sys2Proof/Machine/State.lean ====
section
/-! DEFINITION. The state of the block: every register of rule R31's "complete list of stored state", the event
history (R27), the two output pulses (R29), and, beside them, the configuration the block was built with (R53) and
the environment's coming samples (R28, R62). All of it is plain data. -/

namespace Sys2Proof.Machine

/-- The eight bytes of the report buffer, `R[0]` to `R[7]` (R20, R72). -/
structure Report where
  b0 : Byte
  b1 : Byte
  b2 : Byte
  b3 : Byte
  b4 : Byte
  b5 : Byte
  b6 : Byte
  b7 : Byte
  deriving DecidableEq, Repr

/-- The idle report, "eight bytes of 0x00" (R72). -/
def Report.idle : Report := ⟨0x00, 0x00, 0x00, 0x00, 0x00, 0x00, 0x00, 0x00⟩

/-- The seventeen micro-operations of the sequencer (R150). -/
inductive MicroOp where
  | uLookup (sym : Byte)
  | uSetmod (m : Byte)
  | uFmt (sym : Byte)
  | uZero
  | uTx
  | uWaitAck
  | uLed (b : Byte)
  | uClr2
  | uRecv
  | uSweep1
  | uSweep2
  | uDiagChk
  | uDiagHold
  | uLit (u : Byte)
  | uWaitRdy
  | uWaitCfg
  | uLoop
  deriving DecidableEq, Repr

/-- An event (R27). -/
inductive Event where
  /-- `Tx(b0, ..., b7)`: eight bytes handed to the transport. -/
  | tx (r : Report)
  /-- `Led(id, v)`: indicator `id`, one of 0, 1, 2, requested to take the value `v`. -/
  | led (id : Fin 3) (v : Bool)
  deriving DecidableEq, Repr

/-- The block's state. -/
structure State where
  /-- The parameters the block was built with (R4 to R8): "parameters of the step relation, not state" (R53), carried
  here so that a statement over every state is one over every configuration. No step changes it. -/
  cfg : Config
  /-- The report buffer `R` (R20). -/
  r : Report
  /-- The pending-modifier register `MOD` (R22). -/
  mod : Byte
  /-- The lock flags (R23). -/
  num : Bool
  caps : Bool
  scroll : Bool
  /-- The indicator request outputs: Caps-Lock, Num-Lock, Scroll-Lock (R24). -/
  led0 : Bool
  led1 : Bool
  led2 : Bool
  /-- The lookup result register `LKR` (R25). -/
  lkr : BitVec 11
  /-- The sequencer continuation `K` (R26): the block's program counter. -/
  k : List MicroOp
  /-- The event history `H`, oldest first (R27): no rule reads it. -/
  h : List Event
  /-- The words the command port refused since reset, oldest first: "A model should mark a run that contains a refused
  word" (R186). The model's own observation, read by nothing. Log entry 5. -/
  refusedWords : List CmdWord
  /-- `tx_valid` in the step just taken (R29). -/
  txValid : Bool
  /-- `cmd_err` in the step just taken (R29, R186). -/
  cmdErr : Bool
  /-- The samples the environment will supply at the coming steps, the next one first; past its end the samples are
  free (R28, R62). The model's own. Log entry 1. -/
  inputs : List Sample
  /-- How many steps have been taken: the index of the next free sample. The model's own. Log entry 1. -/
  tick : Nat
  deriving DecidableEq, Repr

/-- There is no fault: "a model's step function has three outcomes only: next state, hold ..., and refused command"
(R183; R180: "no exception paths"). The type has no constructor, so that no step can answer with one. -/
inductive Fault where
  deriving DecidableEq, Repr

/-- Why there is no next state. -/
inductive Refusal where
  /-- Raised by an arm of `exec` whose command has no meaning yet; no arm does so. Safe: nothing can be proved of
  such a command. -/
  | notModelled (mnemonic : String)
  /-- Raised by `boot` for a configuration that is not well formed: "well-formedness of the configuration, which a
  model checks and otherwise refuses" (R5, R7). Safe: no state of such a block exists. -/
  | illFormedConfig
  deriving DecidableEq, Repr

/-- The state right after reset (R33), for a block built with `c` whose environment will supply `inputs`. -/
def State.atReset (c : Config) (inputs : List Sample) (tick : Nat) : State where
  cfg := c
  r := Report.idle
  mod := 0x00
  num := false
  caps := false
  scroll := false
  led0 := false
  led1 := false
  led2 := false
  lkr := 0
  k := []
  h := []
  refusedWords := []
  txValid := false
  cmdErr := false
  inputs := inputs
  tick := tick

/-- The state right after reset, of the block with the default parameters and a free layout, with no sample known. -/
def State.reset : State := State.atReset resetConfig [] 0

end Sys2Proof.Machine
end

