-- ==== Sys2Proof/Machine/Ops.lean ====
section
/-! DEFINITION. The operations every step is made of: the input sample and the start of a step (rules R62, R29), the
moves of the continuation (R26, R161), events (R27), the writes of the report buffer (R56), command acceptance and
refusal (R151, R186), reset (R200) and building a block (R201). The block takes no exception (R180, R183, R184), so
there is no exception entry and no return from one; the abnormal outcomes it has are the refused word, `refuseWord`,
and the hold, `hold`. -/

namespace Sys2Proof.Machine

/-- The sample of the step to be taken: `in` (R62). -/
def State.sample (s : State) : Sample :=
  match s.inputs with
  | [] => Config.freeSample s.tick
  | i :: _ => i

/-- The environment moves on to the next sample, and the output pulses of the previous step end: each lasts "one
step" (R29). Nothing else changes. -/
def beginStep (s : State) : State :=
  { s with inputs := s.inputs.tail, tick := s.tick + 1, txValid := false, cmdErr := false }

/-- A µop that waits leaves the registers, `K` and `H` unchanged (R150, R185; "hold", R10). -/
def hold (s : State) : State := s

/-- A µop removes itself: `K <- tail(K)` (R150, R161 (2)). -/
def finish (s : State) : State := { s with k := s.k.tail }

/-- A µop removes itself and puts others in front of the rest: `K <- us ++ tail(K)` (R150, R161 (3)). -/
def finishWith (us : List MicroOp) (s : State) : State := { s with k := us ++ s.k.tail }

/-- `emit` (R10, R27): the event is appended to the history. -/
def emit (e : Event) (s : State) : State := { s with h := s.h ++ [e] }

/-- The write of bytes 0 and 2 in one step (R56, R123). -/
def writeKey (b0 b2 : Byte) (s : State) : State := { s with r := { s.r with b0 := b0, b2 := b2 } }

/-- The write of byte 2 alone (R141 `U_CLR2`, R155 `U_LIT`). -/
def writeByte2 (v : Byte) (s : State) : State := { s with r := { s.r with b2 := v } }

/-- The write of all eight bytes with 0x00 in one step (R56, R124). -/
def writeIdle (s : State) : State := { s with r := Report.idle }

/-- The report is handed to the transport: a `Tx` event, and `tx_valid` for this step (R125, R29). -/
def transmit (s : State) : State := { emit (.tx s.r) s with txValid := true }

/-- The command port accepts a command at `K = []`: `K <- us`, its expansion (R151). At `K != []` "the command port
is not looked at" and nothing changes. -/
def accept (us : List MicroOp) (s : State) : Host.Outcome State Fault Refusal :=
  match s.k with
  | [] => .next { s with k := us }
  | _ :: _ => .next s

/-- The command port refuses a reserved word: "no register, `K` or `H` changes; `cmd_err` is 1 for that step" (R186).
The run is marked with the word. -/
def refuseWord (w : CmdWord) (s : State) : State :=
  { s with cmdErr := true, refusedWords := s.refusedWords ++ [w] }

/-- `rst` sampled 1 (R200): every register, `K` and `H` take their reset values (R33). The configuration ("the ROMs ...
are not affected") and the environment's samples stay. -/
def resetBlock (s : State) : State := State.atReset s.cfg s.inputs s.tick

/-- A block is built with a configuration, checked, and reset (R201 (1) and (2)); `inputs` is what its environment will
supply. An ill-formed configuration is refused (R5, R7). -/
def boot (c : Config) (inputs : List Sample) : Host.Outcome State Fault Refusal :=
  if c.wf then .next (State.atReset c inputs 0) else .refused .illFormedConfig

/-- `[U_FMT(sym), U_TX, U_WAITACK, U_ZERO, U_TX, U_WAITACK]`, a pulse's six µops (R127). -/
def pulseOps (sym : Byte) : List MicroOp :=
  [.uFmt sym, .uTx, .uWaitAck, .uZero, .uTx, .uWaitAck]

/-- `PulseSeq(sym)` (R127). -/
def pulseSeq (c : Config) (sym : Byte) : List MicroOp :=
  match classify c sym with
  | .none => []
  | .direct => pulseOps sym
  | .ascii => pulseOps sym

/-- The diagnostic pulse (R155). -/
def diagOps : List MicroOp :=
  [.uDiagHold, .uLit usageA, .uTx, .uWaitAck, .uZero, .uTx, .uWaitAck]

/-- The extra exchange (R141). -/
def extraOps : List MicroOp := [.uClr2, .uTx, .uWaitAck]

/-- `CycleSeq` (R151, R158). -/
def cycleOps : List MicroOp := [.uWaitRdy, .uDiagChk, .uSweep1, .uSweep2, .uRecv]

end Sys2Proof.Machine
end

