-- ==== Sys2Proof/Machine/Formatter.lean ====
section
/-! DEFINITION. The report formatter and the exchange with the host: `SETMOD`, `KEYDOWN`, `IDLE`, `XCHG`, `PULSE`
(rules R122 to R127). -/

namespace Sys2Proof.Machine

/-- `U_SETMOD(m)` (R122): `MOD <- m`. -/
def uopSetmod (m : Byte) (s : State) : State :=
  finish { s with mod := m }

/-- `U_FMT(sym)` (R123): `R[0]`, `R[2]` take `Format(sym, MOD)`, or nothing changes. -/
def uopFmt (sym : Byte) (s : State) : State :=
  match formatKey s.cfg sym s.mod with
  | none => finish s
  | some (b0, b2) => finish (writeKey b0 b2 s)

/-- `U_ZERO` (R124). -/
def uopZero (s : State) : State :=
  finish (writeIdle s)

/-- `U_TX` (R125). -/
def uopTx (s : State) : State :=
  finish (transmit s)

/-- `U_WAITACK` (R125): "no timeout, no retry and no abandon". -/
def uopWaitAck (smp : Sample) (s : State) : State :=
  if smp.ack then finish s else hold s

/-- `SETMOD m` expands to `[U_SETMOD(m)]` (R122, R151). -/
def execSetmod (m : Byte) (s : State) : Host.Outcome State Fault Refusal :=
  accept [.uSetmod m] s

/-- `KEYDOWN sym` expands to `[U_FMT(sym)]` (R123, R151). -/
def execKeydown (sym : Byte) (s : State) : Host.Outcome State Fault Refusal :=
  accept [.uFmt sym] s

/-- `IDLE` expands to `[U_ZERO]` (R124, R151). -/
def execIdle (s : State) : Host.Outcome State Fault Refusal :=
  accept [.uZero] s

/-- `XCHG` expands to `[U_TX, U_WAITACK]` (R126, R151). -/
def execXchg (s : State) : Host.Outcome State Fault Refusal :=
  accept [.uTx, .uWaitAck] s

/-- `PULSE sym` expands to `PulseSeq(sym)`, which is empty for class `C_NONE` (R127, R151). -/
def execPulse (sym : Byte) (s : State) : Host.Outcome State Fault Refusal :=
  accept (pulseSeq s.cfg sym) s

end Sys2Proof.Machine
end

