-- ==== Sys2Proof/Machine/Flags.lean ====
section
/-! DEFINITION. The Lock-State Reflector's functions (rules R74, R75, R140): the three lock bits of an incoming report,
and the write of the lock flags and the indicators, the block's only flags (R23, R24). -/

namespace Sys2Proof.Machine

/-- `num = b[0]` (R140). -/
def numBit (b : Byte) : Bool := b.getLsbD 0

/-- `caps = b[1]` (R140). -/
def capsBit (b : Byte) : Bool := b.getLsbD 1

/-- `scroll = b[2]` (R140). -/
def scrollBit (b : Byte) : Bool := b.getLsbD 2

/-- `AnyLock(b)` (R140): "any of the three bits is set". -/
def anyLock (b : Byte) : Bool := numBit b || capsBit b || scrollBit b

/-- The three `Led` events of one update, in the spec's order (R141; no statement should rest on it). -/
def ledEvents (b : Byte) : List Event :=
  [.led 1 (numBit b), .led 0 (capsBit b), .led 2 (scrollBit b)]

/-- All three flags and all three indicators are written at once (R141): bit 0 goes to indicator 1, bit 1 to
indicator 0, bit 2 to indicator 2 (R75). -/
def writeLocks (b : Byte) (s : State) : State :=
  { s with
    num := numBit b, led1 := numBit b
    caps := capsBit b, led0 := capsBit b
    scroll := scrollBit b, led2 := scrollBit b
    h := s.h ++ ledEvents b }

end Sys2Proof.Machine
end

