-- ==== Sys2Proof/Machine/Leds.lean ====
section
/-! DEFINITION. The LED state decoder: `LEDDEC`, `LEDRX` (rules R141 to R143). -/

namespace Sys2Proof.Machine

/-- `U_LED(b)` (R141): flags, indicators, three events, and the extra exchange when any lock bit is set. -/
def uopLed (b : Byte) (s : State) : State :=
  if anyLock b then finishWith extraOps (writeLocks b s) else finish (writeLocks b s)

/-- `U_CLR2` (R141): `R[2] <- 0x00`, and no other byte. -/
def uopClr2 (s : State) : State :=
  finish (writeByte2 0x00 s)

/-- `U_RECV` (R143): `U_LED` of the incoming report sampled at this step. -/
def uopRecv (smp : Sample) (s : State) : State :=
  uopLed smp.outReport s

/-- `LEDDEC b` expands to `[U_LED(b)]` (R142, R151). -/
def execLeddec (b : Byte) (s : State) : Host.Outcome State Fault Refusal :=
  accept [.uLed b] s

/-- `LEDRX` expands to `[U_RECV]` (R143, R151). -/
def execLedrx (s : State) : Host.Outcome State Fault Refusal :=
  accept [.uRecv] s

end Sys2Proof.Machine
end

