-- ==== Sys2Proof/Machine/Lookup.lean ====
section
/-! DEFINITION. `LOOKUP` (rule R105). -/

namespace Sys2Proof.Machine

/-- `U_LOOKUP(sym)` (R105): `LKR` takes class, shift and usage. -/
def uopLookup (sym : Byte) (s : State) : State :=
  finish { s with lkr := lookupResult s.cfg sym }

/-- `LOOKUP sym` expands to `[U_LOOKUP(sym)]` (R105, R151). -/
def execLookup (sym : Byte) (s : State) : Host.Outcome State Fault Refusal :=
  accept [.uLookup sym] s

end Sys2Proof.Machine
end

