-- ==== Sys2Proof/Machine/Sequencer.lean ====
section
/-! DEFINITION. The matrix decoder, the diagnostic injector, the cycle and the loop: `SCAN`, `DIAG`, `CYCLE`, `RUN`
(rules R152 to R159). -/

namespace Sys2Proof.Machine

/-- `U_SWEEP1` (R152): `MOD` takes the modifier the sweep recorded, or "none". -/
def uopSweep1 (smp : Sample) (s : State) : State :=
  finish { s with mod := sweepModifier s.cfg smp.keyN }

/-- `U_SWEEP2` (R153): the first pressed key starts a pulse; `MOD` is read later, by `U_FMT`. -/
def uopSweep2 (smp : Sample) (s : State) : State :=
  match sweepKey s.cfg smp.keyN with
  | some sym => finishWith (pulseSeq s.cfg sym) s
  | none => finish s

/-- `U_DIAGCHK` (R155): the button is sampled once. -/
def uopDiagChk (smp : Sample) (s : State) : State :=
  if smp.diagN then finish s else finishWith diagOps s

/-- `U_DIAGHOLD` (R155): waits for the release. -/
def uopDiagHold (smp : Sample) (s : State) : State :=
  if smp.diagN then finish s else hold s

/-- `U_LIT(u)` (R155): `R[2] <- u`, and no other byte. -/
def uopLit (u : Byte) (s : State) : State :=
  finish (writeByte2 u s)

/-- `U_WAITRDY` (R157). -/
def uopWaitRdy (smp : Sample) (s : State) : State :=
  if smp.hostReady then finish s else hold s

/-- `U_WAITCFG` (R157). -/
def uopWaitCfg (smp : Sample) (s : State) : State :=
  if smp.hostCfg then finish s else hold s

/-- `U_LOOP` (R159): `K <- CycleSeq ++ [U_LOOP]`, whatever stood behind it. -/
def uopLoop (s : State) : State :=
  { s with k := cycleOps ++ [.uLoop] }

/-- `SCAN` expands to `[U_SWEEP1, U_SWEEP2]` (R154, R151). -/
def execScan (s : State) : Host.Outcome State Fault Refusal :=
  accept [.uSweep1, .uSweep2] s

/-- `DIAG` expands to `[U_DIAGCHK]` (R156, R151). -/
def execDiag (s : State) : Host.Outcome State Fault Refusal :=
  accept [.uDiagChk] s

/-- `CYCLE` expands to `CycleSeq` (R158, R151). -/
def execCycle (s : State) : Host.Outcome State Fault Refusal :=
  accept cycleOps s

/-- `RUN` expands to `[U_WAITCFG, U_LOOP]` (R159, R151). -/
def execRun (s : State) : Host.Outcome State Fault Refusal :=
  accept [.uWaitCfg, .uLoop] s

end Sys2Proof.Machine
end

