-- ==== Sys2Proof/Machine/MicroOps.lean ====
section
/-! DEFINITION. The head of `K` is executed with this step's sample (rule R150): one arm per µop. -/

namespace Sys2Proof.Machine

/-- The µop `u`, at the head of `K`, is executed (R150). -/
def runMicroOp (u : MicroOp) (smp : Sample) (s : State) : State :=
  match u with
  | .uLookup sym => uopLookup sym s
  | .uSetmod m => uopSetmod m s
  | .uFmt sym => uopFmt sym s
  | .uZero => uopZero s
  | .uTx => uopTx s
  | .uWaitAck => uopWaitAck smp s
  | .uLed b => uopLed b s
  | .uClr2 => uopClr2 s
  | .uRecv => uopRecv smp s
  | .uSweep1 => uopSweep1 smp s
  | .uSweep2 => uopSweep2 smp s
  | .uDiagChk => uopDiagChk smp s
  | .uDiagHold => uopDiagHold smp s
  | .uLit v => uopLit v s
  | .uWaitRdy => uopWaitRdy smp s
  | .uWaitCfg => uopWaitCfg smp s
  | .uLoop => uopLoop s

/-- The inputs a µop waits for are absent from the sample, so that it holds (R150 "blocks?", R185). -/
def waits (u : MicroOp) (smp : Sample) : Bool :=
  match u with
  | .uWaitAck => !smp.ack
  | .uDiagHold => !smp.diagN
  | .uWaitRdy => !smp.hostReady
  | .uWaitCfg => !smp.hostCfg
  | .uLookup _ | .uSetmod _ | .uFmt _ | .uZero | .uTx | .uLed _ | .uClr2 | .uRecv
  | .uSweep1 | .uSweep2 | .uDiagChk | .uLit _ | .uLoop => false

end Sys2Proof.Machine
end

