-- ==== Sys2Proof/Machine/Dispatch.lean ====
section
/-! DEFINITION. A command's meaning at the step that takes it from the command port (rule R151): one arm per
constructor of Instr. -/

namespace Sys2Proof.Machine

-- A command accepted at `K = []` puts its expansion into `K`; the µops do the work at the steps that follow.
def exec (i : Instr) (s : State) : Host.Outcome State Fault Refusal :=
  match i with
  | .lookup sym => Sys2Proof.Machine.execLookup sym s
  | .setmod m => Sys2Proof.Machine.execSetmod m s
  | .keydown sym => Sys2Proof.Machine.execKeydown sym s
  | .idle => Sys2Proof.Machine.execIdle s
  | .xchg => Sys2Proof.Machine.execXchg s
  | .pulse sym => Sys2Proof.Machine.execPulse sym s
  | .leddec b => Sys2Proof.Machine.execLeddec b s
  | .scan => Sys2Proof.Machine.execScan s
  | .diag => Sys2Proof.Machine.execDiag s
  | .cycle => Sys2Proof.Machine.execCycle s
  | .run => Sys2Proof.Machine.execRun s
  | .ledrx => Sys2Proof.Machine.execLedrx s

end Sys2Proof.Machine
end

