-- ==== Sys2Proof/Machine/Step.lean ====
section
/-! DEFINITION. One step (rule R150): "if `rst = 1` in the sample, reset; else if `K = []`, command acceptance; else
execute the head of `K` with this step's sample". -/

namespace Sys2Proof.Machine

/-- The command port at a step with `K = []` (R151): nothing, a command, or a refused word. -/
def commandPort (smp : Sample) (s : State) : Host.Outcome State Fault Refusal :=
  if smp.cmdValid then
    match decode smp.cmd with
    | .ok i => exec i s
    | .error _ => .next (refuseWord smp.cmd s)
  else .next s

/-- One step of the block (R150). -/
def step (s : State) : Host.Outcome State Fault Refusal :=
  if s.sample.rst then .next (resetBlock (beginStep s))
  else
    match s.k with
    | [] => commandPort s.sample (beginStep s)
    | u :: _ => .next (runMicroOp u s.sample (beginStep s))

/-- The state `s` with an instruction standing where the next step takes it: the port is open (`K = []`) and the next
sample presents the word, without reset (R76, R151). The other inputs of that sample stay as they are. -/
def State.withFetchWord (s : State) (nbits w : Nat) : State :=
  { s with
    k := []
    inputs :=
      { s.sample with rst := false, cmdValid := true, cmd := BitVec.ofNat 12 (tableBits nbits w) } :: s.inputs.tail }

end Sys2Proof.Machine
end

