-- ==== Sys2Proof/Machine/Assembler.lean ====
section
/-! DEFINITION. The assembler notation (rules R81, R82): one command a line, an operand as a hexadecimal byte, a
character or a constant's name, `;` for a comment, and the three pseudo-commands. A line is a list of characters. -/

namespace Sys2Proof.Machine

/-- A word is put before the words already read, unless it is empty. -/
def consWord (word : List Char) (words : List (List Char)) : List (List Char) :=
  if word.isEmpty then words else word :: words

/-- The words of a line, up to its comment. A character literal is one word, whatever character it holds. -/
def asmWords : List Char → List Char → List (List Char)
  | '\'' :: c :: '\'' :: rest, word => consWord word (['\'', c, '\''] :: asmWords rest [])
  | ';' :: _, word => consWord word []
  | ' ' :: rest, word => consWord word (asmWords rest [])
  | c :: rest, word => asmWords rest (word ++ [c])
  | [], word => consWord word []

/-- The value whose hexadecimal digit a character is; R81's letters are taken in either case (log entry 15). -/
def hexDigit (c : Char) : Option Nat :=
  (List.range 16).find? fun n => n.digitChar == c.toLower

/-- The names an operand may have (R81), with the configuration's values (R5). -/
def constantNames (c : Config) : List (List Char × Byte) :=
  [(['K', '_', 'S', 'H', 'I', 'F', 'T'], c.kShift), (['K', '_', 'C', 'T', 'R', 'L'], c.kCtrl),
   (['K', '_', 'A', 'L', 'T'], c.kAlt), (['K', '_', 'E', 'N', 'T', 'E', 'R'], c.kEnter),
   (['K', '_', 'T', 'A', 'B'], c.kTab), (['K', '_', 'N', 'O', 'N', 'E'], kNone)]

/-- An operand's value (R81): `0x61`, `'a'` ("its ASCII code"), or a constant's name. -/
def asmOperand (c : Config) : List Char → Option Byte
  | ['0', 'x', hi, lo] => do
    let h ← hexDigit hi
    let l ← hexDigit lo
    some (BitVec.ofNat 8 (16 * h + l))
  | ['\'', ch, '\''] => if ch.toNat < 128 then some (BitVec.ofNat 8 ch.toNat) else none
  | name => (constantNames c).lookup name

/-- `SENDHOST` (R82). -/
def sendHost : List Instr := [.diag, .scan]

/-- `RECVHOST` (R82). -/
def recvHost : List Instr := [.ledrx]

/-- `TAP sym` (R82): "one key pulse with no held modifier". -/
def tap (sym : Byte) : List Instr := [.setmod kNone, .pulse sym]

/-- The commands and pseudo-commands without operand, by name (R77, R82). -/
def plainCommands : List (List Char × List Instr) :=
  [(['I', 'D', 'L', 'E'], [.idle]), (['X', 'C', 'H', 'G'], [.xchg]), (['S', 'C', 'A', 'N'], [.scan]),
   (['D', 'I', 'A', 'G'], [.diag]), (['C', 'Y', 'C', 'L', 'E'], [.cycle]), (['R', 'U', 'N'], [.run]),
   (['L', 'E', 'D', 'R', 'X'], [.ledrx]), (['S', 'E', 'N', 'D', 'H', 'O', 'S', 'T'], sendHost),
   (['R', 'E', 'C', 'V', 'H', 'O', 'S', 'T'], recvHost)]

/-- The commands and the pseudo-command with one operand, by name (R77, R82). -/
def operandCommands (v : Byte) : List (List Char × List Instr) :=
  [(['L', 'O', 'O', 'K', 'U', 'P'], [.lookup v]), (['S', 'E', 'T', 'M', 'O', 'D'], [.setmod v]),
   (['K', 'E', 'Y', 'D', 'O', 'W', 'N'], [.keydown v]), (['P', 'U', 'L', 'S', 'E'], [.pulse v]),
   (['L', 'E', 'D', 'D', 'E', 'C'], [.leddec v]), (['T', 'A', 'P'], tap v)]

/-- The commands a line stands for (R81, R82); nothing where the line is not in the notation. -/
def asmLine (c : Config) (line : List Char) : Option (List Instr) :=
  match asmWords line [] with
  | [] => some []
  | [name] => plainCommands.lookup name
  | [name, operand] => do
    let v ← asmOperand c operand
    (operandCommands v).lookup name
  | _ :: _ :: _ :: _ => none

end Sys2Proof.Machine
end

