-- ==== Sys2Proof/Machine/Ports.lean ====
section
/-! DEFINITION. The output ports (rule R29), as they stand after a step: `tx_valid` and `cmd_err` belong to the step just
taken, the others to the state it left. -/

namespace Sys2Proof.Machine

/-- The output ports of R29. -/
structure Outputs where
  txValid : Bool
  txData : BitVec 64
  led0 : Bool
  led1 : Bool
  led2 : Bool
  led3 : Bool
  lkResult : BitVec 11
  cmdReady : Bool
  cmdErr : Bool
  deriving DecidableEq, Repr

/-- `tx_data[8*i+7 : 8*i] = R[i]` (R29, R54): byte 0 lowest. -/
def packReport (r : Report) : BitVec 64 :=
  r.b7 ++ (r.b6 ++ (r.b5 ++ (r.b4 ++ (r.b3 ++ (r.b2 ++ (r.b1 ++ r.b0))))))

/-- `cmd_ready`: "1 iff `K = []`" (R29). -/
def cmdReady (s : State) : Bool := s.k.isEmpty

/-- The output ports (R29). `tx_data` means something only under `tx_valid`, and nothing drives `LED[3]` (R24): both
are free there. -/
def outputs (s : State) : Outputs where
  txValid := s.txValid
  txData := if s.txValid then packReport s.r else Config.freeTxData s.tick
  led0 := s.led0
  led1 := s.led1
  led2 := s.led2
  led3 := Config.freeDebugLed s.tick
  lkResult := s.lkr
  cmdReady := cmdReady s
  cmdErr := s.cmdErr

end Sys2Proof.Machine
end

