-- ==== Sys2Proof/Safety.lean ====
section
/-! DEFINITION. The terms in which claims are stated: the samples of the coming steps, runs, the expansion table of
rule R151, the continuations a block can hold (R160), the reachable states and the invariants. -/

namespace Sys2Proof.Machine

/-- The sample of the step `n` steps from now. -/
def State.sampleAt (s : State) (n : Nat) : Sample :=
  match s.inputs[n]? with
  | some i => i
  | none => Config.freeSample (s.tick + n)

/-- No reset in the coming `n` steps. -/
abbrev quiet (n : Nat) (s : State) : Prop := ∀ m < n, (s.sampleAt m).rst = false

/-- `ack` stays 0 at the `d` steps from step `m` on, and is 1 at the step after them: an acknowledgment that comes
`d` steps late. -/
abbrev ackAfter (m d : Nat) (s : State) : Prop :=
  (∀ j < d, (s.sampleAt (m + j)).ack = false) ∧ (s.sampleAt (m + d)).ack = true

/-- The state `s` with `n` samples consumed and no pulse on an output: what `n` steps leave of it that change no
register, `K` or `H` and end without a pulse. -/
def elapse (n : Nat) (s : State) : State :=
  { s with inputs := s.inputs.drop n, tick := s.tick + n, txValid := false, cmdErr := false }

/-- `n` steps. -/
abbrev runFor (n : Nat) (s : State) : Host.Outcome State Fault Refusal :=
  Host.Core.run Sys2Proof.core n s

/-- `Expand(cmd)`, the table of R151. -/
def expansion (c : Config) : Instr → List MicroOp
  | .lookup sym => [.uLookup sym]
  | .setmod m => [.uSetmod m]
  | .keydown sym => [.uFmt sym]
  | .idle => [.uZero]
  | .xchg => [.uTx, .uWaitAck]
  | .pulse sym =>
    if classify c sym = .none then [] else [.uFmt sym, .uTx, .uWaitAck, .uZero, .uTx, .uWaitAck]
  | .leddec b => [.uLed b]
  | .ledrx => [.uRecv]
  | .scan => [.uSweep1, .uSweep2]
  | .diag => [.uDiagChk]
  | .cycle => [.uWaitRdy, .uDiagChk, .uSweep1, .uSweep2, .uRecv]
  | .run => [.uWaitCfg, .uLoop]

/-- The sequences whose remainders `K` can be: an expansion, a cycle under `RUN`, and the three sequences a µop puts
in front of what is left of `SCAN`, `DIAG`, `CYCLE` or a cycle under `RUN` (R151, R160, R161). -/
inductive Sequence : List MicroOp → Prop where
  | command (c : Config) (i : Instr) : Sequence (expansion c i)
  | loop : Sequence (cycleOps ++ [.uLoop])
  | diag (rest : List MicroOp)
      (h : rest ∈ [[], [.uSweep1, .uSweep2, .uRecv], [.uSweep1, .uSweep2, .uRecv, .uLoop]]) :
      Sequence (diagOps ++ rest)
  | pulse (sym : Byte) (rest : List MicroOp) (h : rest ∈ [[], [.uRecv], [.uRecv, .uLoop]]) :
      Sequence (pulseOps sym ++ rest)
  | extra (rest : List MicroOp) (h : rest ∈ [[], [.uLoop]]) : Sequence (extraOps ++ rest)

/-- `K` is what is left of one of the sequences. -/
def LegalK (k : List MicroOp) : Prop := ∃ full, Sequence full ∧ k <:+ full

/-- Every `U_TX` is "followed in `K` immediately by `U_WAITACK`" (R59). -/
def txThenWait : List MicroOp → Bool
  | [] => true
  | [u] => u != .uTx
  | u :: v :: k => (u != .uTx || v == .uWaitAck) && txThenWait (v :: k)

/-- `R[1] = 0x00` and `R[3] = ... = R[7] = 0x00` (R21). -/
def ReportInv (r : Report) : Prop :=
  r.b1 = 0x00 ∧ r.b3 = 0x00 ∧ r.b4 = 0x00 ∧ r.b5 = 0x00 ∧ r.b6 = 0x00 ∧ r.b7 = 0x00

/-- The invariants of the block: R5 to R7 (configuration), R21, R24, R105 ("0b11 never produced") and R160. -/
structure Inv (s : State) : Prop where
  config : s.cfg.wf = true
  report : ReportInv s.r
  lamps : s.led0 = s.caps ∧ s.led1 = s.num ∧ s.led2 = s.scroll
  lookup : lkClass s.lkr ≠ 0b11
  continuation : LegalK s.k

/-- The states of a block built with a well-formed configuration, whatever its environment supplies (R201). -/
inductive Reachable : State → Prop where
  | boot (c : Config) (inputs : List Sample) (s : State) (h : boot c inputs = .next s) : Reachable s
  | step (s t : State) (hs : Reachable s) (h : step s = .next t) : Reachable t

/-- What `K` can be under `RUN` (R159). -/
inductive RunSequence : List MicroOp → Prop where
  | start : RunSequence [.uWaitCfg, .uLoop]
  | cycle : RunSequence (cycleOps ++ [.uLoop])
  | diag : RunSequence (diagOps ++ [.uSweep1, .uSweep2, .uRecv, .uLoop])
  | pulse (sym : Byte) : RunSequence (pulseOps sym ++ [.uRecv, .uLoop])
  | extra : RunSequence (extraOps ++ [.uLoop])

/-- A key-down report stands in `R` only between its write and the `U_ZERO` of the same pulse: `K` starts with what is
left of a pulse whose idle report is still to be sent. -/
def keyDownStands (k : List MicroOp) : Prop :=
  ∃ p rest, p ∈ [[.uTx, .uWaitAck, .uZero, .uTx, .uWaitAck], [.uWaitAck, .uZero, .uTx, .uWaitAck],
    [.uZero, .uTx, .uWaitAck]] ∧ k = p ++ rest

/-- The device's own flow, `RUN` (R159): `K` is not empty and is what is left of a sequence of `RUN`, and outside a
pulse the report buffer is idle. -/
structure RunFlow (s : State) : Prop where
  busy : s.k ≠ []
  sequence : ∃ full, RunSequence full ∧ s.k <:+ full
  report : ReportInv s.r
  idle : s.r = Report.idle ∨ keyDownStands s.k

/-- How many reports a history hands to the transport. -/
def txCount (h : List Event) : Nat :=
  h.countP fun e => match e with | .tx _ => true | .led _ _ => false

/-- How many indicator requests a history holds. -/
def ledCount (h : List Event) : Nat :=
  h.countP fun e => match e with | .tx _ => false | .led _ _ => true

/-- The key-down report of the pair `Format` gives, with the bytes that are always 0x00 (R72, R127). -/
def keyReport (b0 b2 : Byte) : Report := ⟨b0, 0x00, b2, 0x00, 0x00, 0x00, 0x00, 0x00⟩

/-- What no rule reads: the lock flags and indicators (R23, R24), `LKR` (R25), `H` (R27), and the model's mark of refused
words, all set to one value, so that two states can be compared on the rest. -/
def withoutStatus (s : State) : State :=
  { s with
    num := false, caps := false, scroll := false, led0 := false, led1 := false, led2 := false
    lkr := 0, h := [], refusedWords := [] }

end Sys2Proof.Machine
end

