-- ==== Sys2Proof/Certificates/Slice0/Obligations.lean ====
section
/-! DEFINITION. The statements for the provers. Each docstring names the rule of spec/ the statement formalises.
Statements hold for every configuration, every report buffer, every history and every sequence of samples, unless a
hypothesis says otherwise. -/

open Sys2Proof Sys2Proof.Machine

/-! ## The command word -/

/-- R77, R81: words written out from the opcode map decode to the commands they stand for, and reserved words do not
decode. -/
def Obligations.SpecWordsDecode : Prop :=
  decode 0b000101100001 = .ok (.lookup 0x61) ∧
  decode 0b001000000010 = .ok (.setmod 0x02) ∧
  decode 0b001101100001 = .ok (.keydown 0x61) ∧
  decode 0b010000000000 = .ok .idle ∧
  decode 0b010100000000 = .ok .xchg ∧
  decode 0b011001100001 = .ok (.pulse 0x61) ∧
  decode 0b011100000101 = .ok (.leddec 0x05) ∧
  decode 0b100000000000 = .ok .scan ∧
  decode 0b100100000000 = .ok .diag ∧
  decode 0b101000000000 = .ok .cycle ∧
  decode 0b101100000000 = .ok .run ∧
  decode 0b110000000000 = .ok .ledrx ∧
  decode 0b000011111111 = .error (.opcode 0x0) ∧
  decode 0b010000000001 = .error (.argument 0x4 0x01) ∧
  decode 0b110100000000 = .error (.opcode 0xD)

/-- R77, R78: a word decodes to a command exactly when it is that command's encoding. Every operand value is covered, and
no bit of a word is dropped. -/
def Obligations.DecodeInvertsEncode : Prop :=
  ∀ (w : CmdWord) (i : Instr), decode w = .ok i ↔ encode i = w

/-- R77: the rows of the opcode map are disjoint, and the decoder follows them. -/
def Obligations.DecoderFollowsOpcodeMap : Prop :=
  ∀ w : CmdWord,
    (opcodeMap.filter (·.selects w)).length ≤ 1 ∧
    (∀ i, decode w = .ok i → ∃ row ∈ opcodeMap, row.selects w = true ∧ row.mnemonic = mnemonic i) ∧
    (∀ row ∈ opcodeMap, row.selects w = true → ∃ i, decode w = .ok i ∧ mnemonic i = row.mnemonic)

/-- R79, R186: which words are reserved, how many, and that a reserved word at an open port changes nothing but
`cmd_err` for that step. (`refusedWords`, the mark R186 asks of a model, is log entry 5.) -/
def Obligations.ReservedWordIsRefused : Prop :=
  (∀ w : CmdWord,
    (∃ e, decode w = .error e) ↔
      ((opField w ∈ [0x0, 0xD, 0xE, 0xF]) ∨
        (opField w ∈ [0x4, 0x5, 0x8, 0x9, 0xA, 0xB, 0xC] ∧ argField w ≠ 0x00))) ∧
  (∀ w : CmdWord, w.defined = true ↔ ∃ i, decode w = .ok i) ∧
  (List.range 4096).countP (fun n => CmdWord.defined (BitVec.ofNat 12 n)) = 1287 ∧
  (∀ (s : State) (e : Reserved),
    s.k = [] → s.sample.rst = false → s.sample.cmdValid = true → decode s.sample.cmd = .error e →
    step s = .next { elapse 1 s with cmdErr := true, refusedWords := s.refusedWords ++ [s.sample.cmd] })

/-! ## The step -/

/-- R151: a step at an open port whose word decodes runs that command, in the state whose sample has been taken. -/
def Obligations.StepRunsDecodedCommand : Prop :=
  (∀ (s : State) (i : Instr),
    s.k = [] → s.sample.rst = false → s.sample.cmdValid = true → decode s.sample.cmd = .ok i →
    step s = exec i { s with inputs := s.inputs.tail, tick := s.tick + 1, txValid := false, cmdErr := false }) ∧
  (∀ (s : State) (i : Instr),
    step (s.withFetchWord 16 (encode i).toNat) =
      exec i { s with k := [], inputs := s.inputs.tail, tick := s.tick + 1, txValid := false, cmdErr := false })

/-- R150: with no reset and `K` not empty, a step executes the head of `K` with this step's sample. -/
def Obligations.StepRunsHeadOfK : Prop :=
  ∀ (s : State) (u : MicroOp) (rest : List MicroOp),
    s.k = u :: rest → s.sample.rst = false →
    step s = .next (runMicroOp u s.sample
      { s with inputs := s.inputs.tail, tick := s.tick + 1, txValid := false, cmdErr := false })

/-- R151: command acceptance. Every command of the table is accepted at an open port and puts its expansion into `K`,
changing nothing else; with `cmd_valid = 0` nothing changes; a reserved word changes nothing and pulses `cmd_err` (the
model's own mark of the refused word, log entry 5, is left aside); and at a step with `K` not empty the command port is
not looked at. -/
def Obligations.CommandAcceptance : Prop :=
  (∀ (s : State) (i : Instr), s.k = [] → exec i s = .next { s with k := expansion s.cfg i }) ∧
  (∀ (s : State) (i : Instr),
    s.k = [] → s.sample.rst = false → s.sample.cmdValid = true → decode s.sample.cmd = .ok i →
    step s = .next { elapse 1 s with k := expansion s.cfg i }) ∧
  (∀ s : State, s.k = [] → s.sample.rst = false → s.sample.cmdValid = false → step s = .next (elapse 1 s)) ∧
  (∀ (s : State) (e : Reserved),
    s.k = [] → s.sample.rst = false → s.sample.cmdValid = true → decode s.sample.cmd = .error e →
    ∃ t, step s = .next t ∧ { t with refusedWords := s.refusedWords } = { elapse 1 s with cmdErr := true }) ∧
  (∀ (s : State) (smp : Sample) (later : List Sample) (valid : Bool) (w : CmdWord),
    s.k ≠ [] →
    step { s with inputs := { smp with cmdValid := valid, cmd := w } :: later } = step { s with inputs := smp :: later })

/-- R215, R161: a command presented while a sequence runs changes nothing, and no command can abandon a sequence. -/
def Obligations.BusyBlockIgnoresCommands : Prop :=
  ∀ (s : State) (i : Instr), s.k ≠ [] → exec i s = .next s

/-- R200: at a step with `rst = 1`, whatever the state, every register takes its reset value, `K` is empty, no event is
emitted (what is left of `H` is an initial part of it), and the configuration stays; and power-on is a reset. The values
are R33's, among them the zero flags and indicators (log entry 11); that both pulses of R29 are low is log entry 9. -/
def Obligations.ResetWinsOverEverything : Prop :=
  let cleared := fun t : State =>
    t.r = ⟨0x00, 0x00, 0x00, 0x00, 0x00, 0x00, 0x00, 0x00⟩ ∧ t.mod = 0x00 ∧
    t.num = false ∧ t.caps = false ∧ t.scroll = false ∧
    t.led0 = false ∧ t.led1 = false ∧ t.led2 = false ∧ t.lkr = 0 ∧ t.k = []
  (∀ s : State, s.sample.rst = true →
    ∃ t, step s = .next t ∧ cleared t ∧ t.h <+: s.h ∧ t.cfg = s.cfg ∧ t.txValid = false ∧ t.cmdErr = false) ∧
  (∀ (c : Config) (inputs : List Sample) (t : State), boot c inputs = .next t → cleared t)

/-- R33: the state after reset, for every block that is built. The values are that table's, "the spec's choice"; that `H`
is empty, also at a later reset, is log entry 4. -/
def Obligations.ResetValues : Prop :=
  (∀ (c : Config) (inputs : List Sample), c.wf = true → boot c inputs = .next (State.atReset c inputs 0)) ∧
  (∀ s : State, s.sample.rst = true → step s = .next (State.atReset s.cfg s.inputs.tail (s.tick + 1))) ∧
  (∀ (c : Config) (inputs : List Sample) (n : Nat),
    State.atReset c inputs n =
      { cfg := c, r := ⟨0x00, 0x00, 0x00, 0x00, 0x00, 0x00, 0x00, 0x00⟩, mod := 0x00
        num := false, caps := false, scroll := false, led0 := false, led1 := false, led2 := false
        lkr := 0, k := [], h := [], refusedWords := [], txValid := false, cmdErr := false
        inputs := inputs, tick := n })

/-- R180, R183: no step raises anything: from every state, whatever the sample, a step answers a next state, and so does
every number of steps. R183's third outcome, the refused command of R186, is a next state too: log entry 5. -/
def Obligations.EveryRunContinues : Prop :=
  ∀ (n : Nat) (s : State), ∃ t, runFor n s = .next t ∧ t.tick = s.tick + n

/-- R53: no step changes the configuration, the ROMs among it; a step takes exactly one sample (R62). -/
def Obligations.StepKeepsConfiguration : Prop :=
  ∀ s t : State, step s = .next t →
    t.cfg = s.cfg ∧ t.inputs = s.inputs.tail ∧ ∀ n, t.sampleAt n = s.sampleAt (n + 1)

/-- R5, R6, R7, R201 (1): a configuration is taken exactly when it meets the constraints on the constants, has
`SCT[0x41] = 0x04` and every layout entry is admissible; otherwise it is refused. -/
def Obligations.BootRefusesIllFormedConfiguration : Prop :=
  ∀ (c : Config) (inputs : List Sample),
    let admissible :=
      [0x00, c.kShift, c.kCtrl, c.kAlt].Nodup ∧
      (∀ v ∈ [0x00, c.kShift, c.kCtrl, c.kAlt],
        v ≠ c.kEnter ∧ v ≠ c.kTab ∧ ¬(0x20 ≤ v.toNat ∧ v.toNat ≤ 0x7F)) ∧
      c.kEnter ≠ c.kTab ∧
      c.sct.get 0x41 = 0x04 ∧
      ∀ p : Pos,
        layoutRead c p ∈ [0x00, c.kShift, c.kCtrl, c.kAlt] ∨ classify c (layoutRead c p) ≠ .none
    (admissible → ∃ t, boot c inputs = .next t ∧ t.cfg = c ∧ t.inputs = inputs) ∧
    (¬admissible → boot c inputs = .refused .illFormedConfig)

/-- R7 with log entry 3: the configuration of `State.reset` is well formed, whatever the platform's free layout entries
are, and `State.reset` is the block built with it. -/
def Obligations.ResetConfigurationIsAdmissible : Prop :=
  boot resetConfig [] = .next State.reset

/-! ## The lookup -/

/-- R100: the class of a symbolic value. -/
def Obligations.ClassOfSymbol : Prop :=
  ∀ (c : Config) (sym : Byte),
    (classify c sym = .direct ↔ sym = c.kEnter ∨ sym = c.kTab) ∧
    (classify c sym = .ascii ↔
      ¬(sym = c.kEnter ∨ sym = c.kTab) ∧ 0x20 ≤ sym.toNat ∧ sym.toNat ≤ 0x7F) ∧
    (classify c sym = .none ↔
      ¬(sym = c.kEnter ∨ sym = c.kTab) ∧ ¬(0x20 ≤ sym.toNat ∧ sym.toNat ≤ 0x7F))

/-- R101, R102, R104: index, usage and shift of a symbolic value, class by class. -/
def Obligations.UsageAndShiftOfSymbol : Prop :=
  ∀ (c : Config) (sym : Byte),
    (classify c sym = .ascii →
      ∃ i : Fin 96, symIndex c sym = some i ∧ i.val = sym.toNat - 0x20 ∧
        usage c sym = c.sct.get i ∧ shiftNeeded c sym = needsShift i) ∧
    (classify c sym = .direct → symIndex c sym = none ∧ usage c sym = sym ∧ shiftNeeded c sym = false) ∧
    (classify c sym = .none → symIndex c sym = none ∧ usage c sym = 0x00 ∧ shiftNeeded c sym = false)

/-- R103: the shift-needed predicate as the six ranges, and its count. -/
def Obligations.NeedsShiftRanges : Prop :=
  (∀ i : Fin 96, needsShift i = true ↔
    (1 ≤ i.val ∧ i.val ≤ 6) ∨ (8 ≤ i.val ∧ i.val ≤ 11) ∨ i.val = 26 ∨ i.val = 28 ∨
      (30 ≤ i.val ∧ i.val ≤ 58) ∨ i.val = 62 ∨ i.val = 63 ∨ (91 ≤ i.val ∧ i.val ≤ 94)) ∧
  (List.finRange 96).countP needsShift = 47

/-- R6, R102 (S1 of the test vectors): under every admissible configuration whose Enter and Tab are not the code of
`'a'`, the usage of `'a'` is `SCT[0x41]`, which is 0x04. -/
def Obligations.UsageOfLetterA : Prop :=
  ∀ c : Config, c.wf = true → c.kEnter ≠ 0x61 → c.kTab ≠ 0x61 →
    symIndex c 0x61 = some 0x41 ∧ usage c 0x61 = 0x04 ∧ shiftNeeded c 0x61 = false

/-- R105: `LOOKUP sym` runs to its end in one µop, for every operand: `LKR` holds class, shift and usage, and nothing else
changes. -/
def Obligations.LookupCompletes : Prop :=
  ∀ (s : State) (sym : Byte), s.k = [] → s.sample.rst = false →
    exec (.lookup sym) s = .next { s with k := [.uLookup sym] } ∧
    ∃ v : BitVec 11,
      runFor 1 { s with k := [.uLookup sym] } = .next { elapse 1 s with lkr := v } ∧
      lkClass v = (match classify s.cfg sym with | .none => 0b00 | .direct => 0b01 | .ascii => 0b10) ∧
      lkShift v = shiftNeeded s.cfg sym ∧
      lkUsage v = usage s.cfg sym

/-! ## The report formatter and the exchange -/

/-- R120, R121: the byte pair of a key-down report, and what a pending modifier contributes to it. A character that needs
Shift gives `K_SHIFT` whatever modifier is held. -/
def Obligations.FormatPair : Prop :=
  (∀ (c : Config) (m : Byte),
    (c.modPass = .all → modByte c m = m) ∧
    (c.modPass = .shiftOnly → m = c.kShift → modByte c m = c.kShift) ∧
    (c.modPass = .shiftOnly → m ≠ c.kShift → modByte c m = 0x00)) ∧
  (∀ (c : Config) (sym m : Byte),
    (classify c sym = .none → formatKey c sym m = none) ∧
    (classify c sym = .direct → formatKey c sym m = some (modByte c m, sym)) ∧
    (∀ i, classify c sym = .ascii → symIndex c sym = some i → needsShift i = true →
      formatKey c sym m = some (c.kShift, c.sct.get i)) ∧
    (∀ i, classify c sym = .ascii → symIndex c sym = some i → needsShift i = false →
      formatKey c sym m = some (modByte c m, c.sct.get i)))

/-- R122: `SETMOD m` stores `m` in `MOD`, for every operand, and changes nothing else. -/
def Obligations.SetmodCompletes : Prop :=
  ∀ (s : State) (m : Byte), s.k = [] → s.sample.rst = false →
    exec (.setmod m) s = .next { s with k := [.uSetmod m] } ∧
    runFor 1 { s with k := [.uSetmod m] } = .next { elapse 1 s with mod := m }

/-- R123: `KEYDOWN sym` writes bytes 0 and 2 of the report, or nothing, and changes nothing else. -/
def Obligations.KeydownCompletes : Prop :=
  ∀ (s : State) (sym : Byte), s.k = [] → s.sample.rst = false →
    exec (.keydown sym) s = .next { s with k := [.uFmt sym] } ∧
    (formatKey s.cfg sym s.mod = none → runFor 1 { s with k := [.uFmt sym] } = .next (elapse 1 s)) ∧
    (∀ b0 b2, formatKey s.cfg sym s.mod = some (b0, b2) →
      runFor 1 { s with k := [.uFmt sym] } = .next { elapse 1 s with r := { s.r with b0 := b0, b2 := b2 } })

/-- R124: `IDLE` writes 0x00 into all eight bytes of the report and changes nothing else. -/
def Obligations.IdleCompletes : Prop :=
  ∀ s : State, s.k = [] → s.sample.rst = false →
    exec .idle s = .next { s with k := [.uZero] } ∧
    runFor 1 { s with k := [.uZero] } =
      .next { elapse 1 s with r := ⟨0x00, 0x00, 0x00, 0x00, 0x00, 0x00, 0x00, 0x00⟩ }

/-- R125: the exchange primitive. `U_TX` never blocks, emits the eight bytes and changes no register; `U_WAITACK` changes
nothing, and ends exactly at a sample with `ack = 1`. -/
def Obligations.ExchangePrimitive : Prop :=
  (∀ (s : State) (rest : List MicroOp), s.k = .uTx :: rest → s.sample.rst = false →
    step s = .next { elapse 1 s with k := rest, h := s.h ++ [.tx s.r], txValid := true }) ∧
  (∀ (s : State) (rest : List MicroOp), s.k = .uWaitAck :: rest → s.sample.rst = false →
    (s.sample.ack = true → step s = .next { elapse 1 s with k := rest }) ∧
    (s.sample.ack = false → step s = .next (elapse 1 s)))

/-- R126: `XCHG` transmits the report once and ends at the acknowledgment, however late it comes. -/
def Obligations.XchgCompletes : Prop :=
  ∀ (s : State) (d : Nat), s.k = [] → quiet (2 + d) s → ackAfter 1 d s →
    exec .xchg s = .next { s with k := [.uTx, .uWaitAck] } ∧
    runFor (2 + d) { s with k := [.uTx, .uWaitAck] } = .next { elapse (2 + d) s with h := s.h ++ [.tx s.r] }

/-- R127: `PULSE sym` of a symbol with a class transmits exactly two reports, the key-down report and the idle report, and
ends with the report idle, however late the two acknowledgments come; `MOD` is not changed. Of a symbol of class `C_NONE`
it does nothing, and the block is idle again at once. -/
def Obligations.PulseCompletes : Prop :=
  (∀ (s : State) (sym b0 b2 : Byte) (d e : Nat), s.k = [] → ReportInv s.r →
    formatKey s.cfg sym s.mod = some (b0, b2) →
    quiet (6 + d + e) s → ackAfter 2 d s → ackAfter (5 + d) e s →
    ∃ t0, exec (.pulse sym) s = .next t0 ∧
      runFor (6 + d + e) t0 = .next
        { elapse (6 + d + e) s with
          r := Report.idle
          h := s.h ++ [.tx (keyReport b0 b2), .tx (keyReport 0x00 0x00)] }) ∧
  (∀ (s : State) (sym : Byte), s.k = [] → classify s.cfg sym = .none → exec (.pulse sym) s = .next s)

/-- R207, R185 (S13 of the test vectors): if the acknowledgment of the key-down report never comes, the block stays at the
first wait of the pulse and the idle report is never sent. -/
def Obligations.PulseWithoutAckIsStuck : Prop :=
  ∀ (s : State) (sym b0 b2 : Byte) (n : Nat), s.k = [] → ReportInv s.r →
    formatKey s.cfg sym s.mod = some (b0, b2) →
    quiet (3 + n) s → (∀ m < 3 + n, (s.sampleAt m).ack = false) →
    ∃ t0, exec (.pulse sym) s = .next t0 ∧
      runFor (3 + n) t0 = .next
        { elapse (3 + n) s with
          r := keyReport b0 b2
          k := [.uWaitAck, .uZero, .uTx, .uWaitAck]
          h := s.h ++ [.tx (keyReport b0 b2)] }

/-- R185: each of the four waiting µops makes no progress for as long as its input is absent: no register, `K` or `H`
changes, whatever the number of steps. -/
def Obligations.WaitsHaveNoTimeout : Prop :=
  ∀ (s : State) (u : MicroOp) (rest : List MicroOp) (n : Nat),
    s.k = u :: rest → quiet (n + 1) s →
    (∀ m < n + 1,
      (u = .uWaitCfg ∧ (s.sampleAt m).hostCfg = false) ∨ (u = .uWaitRdy ∧ (s.sampleAt m).hostReady = false) ∨
      (u = .uWaitAck ∧ (s.sampleAt m).ack = false) ∨ (u = .uDiagHold ∧ (s.sampleAt m).diagN = false)) →
    runFor (n + 1) s = .next (elapse (n + 1) s)

/-! ## The LED decoder -/

/-- R141: `U_LED(b)` and `U_CLR2`. The order of the three `Led` events is left open, as the rule asks. -/
def Obligations.LedUpdate : Prop :=
  (∀ (s : State) (b : Byte) (rest : List MicroOp), s.k = .uLed b :: rest → s.sample.rst = false →
    ∃ es : List Event,
      es.Perm [.led 1 (b.getLsbD 0), .led 0 (b.getLsbD 1), .led 2 (b.getLsbD 2)] ∧
      step s = .next
        { elapse 1 s with
          num := b.getLsbD 0, led1 := b.getLsbD 0
          caps := b.getLsbD 1, led0 := b.getLsbD 1
          scroll := b.getLsbD 2, led2 := b.getLsbD 2
          h := s.h ++ es
          k := if b.getLsbD 0 || b.getLsbD 1 || b.getLsbD 2 then .uClr2 :: .uTx :: .uWaitAck :: rest else rest }) ∧
  (∀ (s : State) (rest : List MicroOp), s.k = .uClr2 :: rest → s.sample.rst = false →
    step s = .next { elapse 1 s with k := rest, r := { s.r with b2 := 0x00 } })

/-- R142: `LEDDEC b` runs to its end for every operand: flags, indicators and three `Led` events, and, exactly when a lock
bit is set, one report with byte 2 cleared, whose acknowledgment ends the command. Bits 7 to 3 take no part. -/
def Obligations.LeddecCompletes : Prop :=
  ∀ (s : State) (b : Byte) (d : Nat), s.k = [] →
    exec (.leddec b) s = .next { s with k := [.uLed b] } ∧
    ∃ es : List Event,
      es.Perm [.led 1 (b.getLsbD 0), .led 0 (b.getLsbD 1), .led 2 (b.getLsbD 2)] ∧
      let t : State :=
        { s with
          num := b.getLsbD 0, led1 := b.getLsbD 0
          caps := b.getLsbD 1, led0 := b.getLsbD 1
          scroll := b.getLsbD 2, led2 := b.getLsbD 2
          h := s.h ++ es }
      (b &&& 0x07 = 0x00 → quiet 1 s → runFor 1 { s with k := [.uLed b] } = .next (elapse 1 t)) ∧
      (b &&& 0x07 ≠ 0x00 → quiet (4 + d) s → ackAfter 3 d s →
        runFor (4 + d) { s with k := [.uLed b] } = .next
          { elapse (4 + d) t with r := { s.r with b2 := 0x00 }, h := t.h ++ [.tx { s.r with b2 := 0x00 }] })

/-- R143: `LEDRX` does what `LEDDEC` does with the incoming report of the step that executes `U_RECV`. -/
def Obligations.LedrxCompletes : Prop :=
  ∀ (s : State) (d : Nat), s.k = [] →
    exec .ledrx s = .next { s with k := [.uRecv] } ∧
    (s.sample.rst = false →
      step { s with k := [.uRecv] } = step { s with k := [.uLed s.sample.outReport] }) ∧
    (∀ b, s.sample.outReport = b → b &&& 0x07 = 0x00 → quiet 1 s →
      ∃ t, runFor 1 { s with k := [.uRecv] } = .next t ∧ t.k = [] ∧ t.r = s.r ∧ t.mod = s.mod ∧
        t.num = false ∧ t.caps = false ∧ t.scroll = false ∧ t.led0 = false ∧ t.led1 = false ∧ t.led2 = false) ∧
    (∀ b, s.sample.outReport = b → b &&& 0x07 ≠ 0x00 → quiet (4 + d) s → ackAfter 3 d s →
      ∃ t, runFor (4 + d) { s with k := [.uRecv] } = .next t ∧ t.k = [] ∧ t.mod = s.mod ∧
        t.num = b.getLsbD 0 ∧ t.caps = b.getLsbD 1 ∧ t.scroll = b.getLsbD 2 ∧
        t.led1 = b.getLsbD 0 ∧ t.led0 = b.getLsbD 1 ∧ t.led2 = b.getLsbD 2 ∧
        t.r = { s.r with b2 := 0x00 } ∧ txCount t.h = txCount s.h + 1 ∧ ledCount t.h = ledCount s.h + 3)

/-! ## The sequencer -/

/-- R152: `U_SWEEP1` writes `MOD`, and nothing else, with the value of a pressed modifier position: the last one in
row-major order, or the first, by `MOD_SELECT`; 0x00 when none is pressed, whatever `MOD` held. -/
def Obligations.SweepOneRecordsModifier : Prop :=
  ∀ (s : State) (rest : List MicroOp), s.k = .uSweep1 :: rest → s.sample.rst = false → s.cfg.wf = true →
    let down := fun p : Pos =>
      layoutRead s.cfg p ∈ [s.cfg.kShift, s.cfg.kCtrl, s.cfg.kAlt] ∧ gridGet s.sample.keyN p = false
    ∃ m : Byte,
      step s = .next { elapse 1 s with k := rest, mod := m } ∧
      ((∀ p, ¬down p) → m = 0x00) ∧
      (∀ p, s.cfg.modSelect = .last → down p → (∀ q, linearIndex p < linearIndex q → ¬down q) →
        m = layoutRead s.cfg p) ∧
      (∀ p, s.cfg.modSelect = .first → down p → (∀ q, linearIndex q < linearIndex p → ¬down q) →
        m = layoutRead s.cfg p)

/-- R153: `U_SWEEP2` starts the pulse of the row-major-first pressed non-modifier key, and of no other; with none pressed
nothing is sent. The sweep itself writes no register and emits nothing. -/
def Obligations.SweepTwoReportsFirstKey : Prop :=
  ∀ (s : State) (rest : List MicroOp), s.k = .uSweep2 :: rest → s.sample.rst = false → s.cfg.wf = true →
    let down := fun p : Pos =>
      layoutRead s.cfg p ∉ [0x00, s.cfg.kShift, s.cfg.kCtrl, s.cfg.kAlt] ∧ gridGet s.sample.keyN p = false
    ((∀ p, ¬down p) → step s = .next { elapse 1 s with k := rest }) ∧
    (∀ p, down p → (∀ q, linearIndex q < linearIndex p → ¬down q) →
      step s = .next
        { elapse 1 s with
          k := .uFmt (layoutRead s.cfg p) :: .uTx :: .uWaitAck :: .uZero :: .uTx :: .uWaitAck :: rest })

/-- R62, R152, R153: sweep 1 reads the modifier positions and no other, sweep 2 the bound positions that hold no modifier
and no other. -/
def Obligations.SweepsReadDisjointPositions : Prop :=
  ∀ (c : Config) (g g' : Grid Bool),
    ((∀ p, layoutRead c p ∈ [c.kShift, c.kCtrl, c.kAlt] → gridGet g p = gridGet g' p) →
      sweepModifier c g = sweepModifier c g') ∧
    ((∀ p, layoutRead c p ∉ [0x00, c.kShift, c.kCtrl, c.kAlt] → gridGet g p = gridGet g' p) →
      sweepKey c g = sweepKey c g')

/-- R154: `SCAN` runs to its end. With no key down in sweep 2's sample it writes `MOD` and sends nothing; with one, it sends
exactly two reports, the key-down report formatted with the modifier of sweep 1's sample, and the idle report. -/
def Obligations.ScanCompletes : Prop :=
  ∀ (s : State) (d e : Nat), s.k = [] → ReportInv s.r → s.cfg.wf = true →
    exec .scan s = .next { s with k := [.uSweep1, .uSweep2] } ∧
    let m := sweepModifier s.cfg (s.sampleAt 0).keyN
    (sweepKey s.cfg (s.sampleAt 1).keyN = none → quiet 2 s →
      runFor 2 { s with k := [.uSweep1, .uSweep2] } = .next { elapse 2 s with mod := m }) ∧
    (∀ sym, sweepKey s.cfg (s.sampleAt 1).keyN = some sym →
      quiet (8 + d + e) s → ackAfter 4 d s → ackAfter (7 + d) e s →
      ∃ b0 b2, formatKey s.cfg sym m = some (b0, b2) ∧
        runFor (8 + d + e) { s with k := [.uSweep1, .uSweep2] } = .next
          { elapse (8 + d + e) s with
            mod := m
            r := Report.idle
            h := s.h ++ [.tx (keyReport b0 b2), .tx (keyReport 0x00 0x00)] })

/-- R155: the diagnostic µops. The check puts the hold and the literal's pulse in front of what is left, the hold ends
exactly at a sample with `diag_n = 1`, and the literal writes byte 2 alone. -/
def Obligations.DiagnosticMicroOps : Prop :=
  (∀ (s : State) (rest : List MicroOp), s.k = .uDiagChk :: rest → s.sample.rst = false →
    (s.sample.diagN = false → step s = .next
      { elapse 1 s with
        k := .uDiagHold :: .uLit 0x04 :: .uTx :: .uWaitAck :: .uZero :: .uTx :: .uWaitAck :: rest }) ∧
    (s.sample.diagN = true → step s = .next { elapse 1 s with k := rest })) ∧
  (∀ (s : State) (rest : List MicroOp), s.k = .uDiagHold :: rest → s.sample.rst = false →
    (s.sample.diagN = true → step s = .next { elapse 1 s with k := rest }) ∧
    (s.sample.diagN = false → step s = .next (elapse 1 s))) ∧
  (∀ (s : State) (u : Byte) (rest : List MicroOp), s.k = .uLit u :: rest → s.sample.rst = false →
    step s = .next { elapse 1 s with k := rest, r := { s.r with b2 := u } })

/-- R155, R156: `DIAG` runs to its end. With the button up at the check it does nothing; with it down, it waits for the
release, however late, and then sends a report with the literal 0x04 in byte 2 (byte 0 as it stands) and the idle report.
As long as the button stays down it is stuck at the hold. -/
def Obligations.DiagCompletes : Prop :=
  ∀ (s : State) (w d e : Nat), s.k = [] → ReportInv s.r →
    exec .diag s = .next { s with k := [.uDiagChk] } ∧
    (s.sample.diagN = true → quiet 1 s → runFor 1 { s with k := [.uDiagChk] } = .next (elapse 1 s)) ∧
    (s.sample.diagN = false → quiet (8 + w + d + e) s →
      (∀ j < w, (s.sampleAt (1 + j)).diagN = false) → (s.sampleAt (1 + w)).diagN = true →
      ackAfter (4 + w) d s → ackAfter (7 + w + d) e s →
      runFor (8 + w + d + e) { s with k := [.uDiagChk] } = .next
        { elapse (8 + w + d + e) s with
          r := Report.idle
          h := s.h ++ [.tx (keyReport s.r.b0 0x04), .tx (keyReport 0x00 0x00)] }) ∧
    (∀ n, s.sample.diagN = false → quiet (1 + n) s → (∀ j < n, (s.sampleAt (1 + j)).diagN = false) →
      runFor (1 + n) { s with k := [.uDiagChk] } = .next { elapse (1 + n) s with k := diagOps })

/-- R157: the two readiness waits. -/
def Obligations.ReadinessWaits : Prop :=
  (∀ (s : State) (rest : List MicroOp), s.k = .uWaitRdy :: rest → s.sample.rst = false →
    (s.sample.hostReady = true → step s = .next { elapse 1 s with k := rest }) ∧
    (s.sample.hostReady = false → step s = .next (elapse 1 s))) ∧
  (∀ (s : State) (rest : List MicroOp), s.k = .uWaitCfg :: rest → s.sample.rst = false →
    (s.sample.hostCfg = true → step s = .next { elapse 1 s with k := rest }) ∧
    (s.sample.hostCfg = false → step s = .next (elapse 1 s)))

/-- R158, C4: `CYCLE` runs to its end, however late the host is ready (`w` steps), the button is released (`h`) and each
report is acknowledged (`d₁`, `e₁` of the diagnostic pulse, `d₂`, `e₂` of the key pulse, `d₃` of the extra report). The
events come in this order: the diagnostic pulse if the button is down at the check, the key pulse if a key is down in
sweep 2, the three `Led` requests in an order left open (R141), one more report if a lock bit is set. `o`, `q`, `x` are the
steps that the button, the key and a lock bit add; an input is asked for only at the steps that read it. `R` need not be
idle at the start: its byte 0 goes out in the first report that no key writes (R155, R214). -/
def Obligations.CycleCompletes : Prop :=
  ∀ (s : State) (w h d₁ e₁ d₂ e₂ d₃ : Nat) (m b : Byte) (key : Option Byte),
    s.k = [] → ReportInv s.r → s.cfg.wf = true →
    let up := (s.sampleAt (w + 1)).diagN
    let o := if up then 0 else 7 + h + d₁ + e₁
    let q := if key = none then 0 else 6 + d₂ + e₂
    let x := if b &&& 0x07 = 0x00 then 0 else 3 + d₃
    quiet (5 + w + o + q + x) s →
    (∀ j < w, (s.sampleAt j).hostReady = false) → (s.sampleAt w).hostReady = true →
    (up = false → (∀ j < h, (s.sampleAt (2 + w + j)).diagN = false) ∧ (s.sampleAt (2 + w + h)).diagN = true ∧
      ackAfter (5 + w + h) d₁ s ∧ ackAfter (8 + w + h + d₁) e₁ s) →
    m = sweepModifier s.cfg (s.sampleAt (2 + w + o)).keyN →
    key = sweepKey s.cfg (s.sampleAt (3 + w + o)).keyN →
    (key ≠ none → ackAfter (6 + w + o) d₂ s ∧ ackAfter (9 + w + o + d₂) e₂ s) →
    b = (s.sampleAt (4 + w + o + q)).outReport →
    (b &&& 0x07 ≠ 0x00 → ackAfter (7 + w + o + q) d₃ s) →
    exec .cycle s = .next { s with k := [.uWaitRdy, .uDiagChk, .uSweep1, .uSweep2, .uRecv] } ∧
    ∃ es keyTx,
      es.Perm [.led 1 (b.getLsbD 0), .led 0 (b.getLsbD 1), .led 2 (b.getLsbD 2)] ∧
      (key = none → keyTx = []) ∧
      (∀ sym, key = some sym → ∃ b0 b2, formatKey s.cfg sym m = some (b0, b2) ∧
        keyTx = [.tx (keyReport b0 b2), .tx (keyReport 0x00 0x00)]) ∧
      let sent := if up = true ∧ key = none then s.r else Report.idle
      runFor (5 + w + o + q + x) { s with k := [.uWaitRdy, .uDiagChk, .uSweep1, .uSweep2, .uRecv] } = .next
        { elapse (5 + w + o + q + x) s with
          mod := m
          num := b.getLsbD 0, led1 := b.getLsbD 0
          caps := b.getLsbD 1, led0 := b.getLsbD 1
          scroll := b.getLsbD 2, led2 := b.getLsbD 2
          r := if b &&& 0x07 = 0x00 then sent else { sent with b2 := 0x00 }
          h := s.h ++ (if up then [] else [.tx (keyReport s.r.b0 0x04), .tx (keyReport 0x00 0x00)]) ++ keyTx ++ es ++
            if b &&& 0x07 = 0x00 then [] else [.tx { sent with b2 := 0x00 }] }

/-- R158, C4: however long a `CYCLE` takes and whatever its samples are, when `K` is first empty again it has sent
`2d + 2k + a` reports and three `Led` requests: `d` is 1 iff the button is down in the sample of the step that executes
`U_DIAGCHK`, `k` is 1 iff sweep 2 finds a key in the sample of its step, and `a` is 1 iff the report that `U_RECV` samples
has a lock bit, which is also what the flags then show. -/
def Obligations.CycleReportCount : Prop :=
  ∀ (s t : State) (n : Nat), s.k = [] → s.cfg.wf = true → quiet n s →
    (∀ j < n, ∀ u, runFor j { s with k := cycleOps } = .next u → u.k ≠ []) →
    runFor n { s with k := cycleOps } = .next t → t.k = [] →
    ∃ (i₁ i₂ i₃ : Nat) (chk sweep recv : State),
      i₁ < i₂ ∧ i₂ < i₃ ∧ i₃ < n ∧
      runFor i₁ { s with k := cycleOps } = .next chk ∧ chk.k = [.uDiagChk, .uSweep1, .uSweep2, .uRecv] ∧
      runFor i₂ { s with k := cycleOps } = .next sweep ∧ sweep.k = [.uSweep2, .uRecv] ∧
      runFor i₃ { s with k := cycleOps } = .next recv ∧ recv.k = [.uRecv] ∧
      let d := if chk.sample.diagN then 0 else 1
      let k := if sweepKey s.cfg sweep.sample.keyN = none then 0 else 1
      let a := if recv.sample.outReport &&& 0x07 = 0x00 then 0 else 1
      txCount t.h = txCount s.h + 2 * d + 2 * k + a ∧
      ledCount t.h = ledCount s.h + 3 ∧
      t.num = recv.sample.outReport.getLsbD 0 ∧ t.caps = recv.sample.outReport.getLsbD 1 ∧
      t.scroll = recv.sample.outReport.getLsbD 2

/-- R159: `RUN` is accepted, waits for the configuration, and starts a cycle; each `U_LOOP` starts the next one. -/
def Obligations.RunStartsCycles : Prop :=
  (∀ s : State, s.k = [] → exec .run s = .next { s with k := [.uWaitCfg, .uLoop] }) ∧
  (∀ (s : State) (d : Nat), s.k = [.uWaitCfg, .uLoop] → quiet (2 + d) s →
    (∀ j < d, (s.sampleAt j).hostCfg = false) → (s.sampleAt d).hostCfg = true →
    runFor (2 + d) s = .next
      { elapse (2 + d) s with k := [.uWaitRdy, .uDiagChk, .uSweep1, .uSweep2, .uRecv, .uLoop] }) ∧
  (∀ s : State, s.k = [.uLoop] → s.sample.rst = false →
    step s = .next { elapse 1 s with k := [.uWaitRdy, .uDiagChk, .uSweep1, .uSweep2, .uRecv, .uLoop] })

/-- R159, R215: after `RUN` the command port never becomes ready again, whatever the samples, as long as there is no
reset. -/
def Obligations.RunNeverCompletes : Prop :=
  ∀ (s : State) (n : Nat), s.k = [] → quiet n s →
    ∃ t0 t, exec .run s = .next t0 ∧ runFor n t0 = .next t ∧ t.k ≠ [] ∧ cmdReady t = false

/-- R128 (a), R141, R155, R159, R214, of the device's own flow: under `RUN`, whatever the samples, the report buffer is
idle outside a pulse. The flow is entered by `RUN` from an idle report and every step without reset keeps it. -/
def Obligations.RunKeepsReportIdleOutsidePulses : Prop :=
  (∀ s t : State, s.k = [] → s.r = Report.idle → exec .run s = .next t → RunFlow t) ∧
  (∀ s t : State, RunFlow s → s.sample.rst = false → step s = .next t → RunFlow t)

/-- R128 (a), R141: in the device's own flow the report of the extra exchange, and the second report of every pulse, is the
idle report; any other report is followed in `K` by its acknowledgment, `U_ZERO` and the idle report's exchange. -/
def Obligations.KeyDownIsFollowedByIdleReport : Prop :=
  ∀ (s t : State) (rest : List MicroOp), RunFlow s → s.k = .uTx :: rest → s.sample.rst = false → step s = .next t →
    t.h = s.h ++ [.tx Report.idle] ∨
    (∃ b0 b2 rest', t.h = s.h ++ [.tx (keyReport b0 b2)] ∧ t.k = .uWaitAck :: .uZero :: .uTx :: .uWaitAck :: rest')

/-! ## Whole-machine rules -/

/-- The invariants of `Inv` (R21, R24, R105, R160, and the configuration) are kept by every step, from every state that
meets them, whatever the sample. -/
def Obligations.StepKeepsInvariant : Prop :=
  ∀ s t : State, Inv s → step s = .next t → Inv t

/-- The block is built in a state that meets the invariants, with any well-formed configuration. -/
def Obligations.BootEstablishesInvariant : Prop :=
  Inv State.reset ∧ ∀ (c : Config) (inputs : List Sample) (t : State), boot c inputs = .next t → Inv t

/-- R21, R24, R59, R160: in every reachable state the six unused bytes are 0x00, the indicators equal the flags, every
`U_TX` in `K` is followed by `U_WAITACK`, and `K` has at most 11 elements. -/
def Obligations.ReachableStates : Prop :=
  ∀ s : State, Reachable s →
    (s.r.b1 = 0x00 ∧ s.r.b3 = 0x00 ∧ s.r.b4 = 0x00 ∧ s.r.b5 = 0x00 ∧ s.r.b6 = 0x00 ∧ s.r.b7 = 0x00) ∧
    (s.led0 = s.caps ∧ s.led1 = s.num ∧ s.led2 = s.scroll) ∧
    txThenWait s.k = true ∧ s.k.length ≤ 11

/-- R160: eleven is reached, under `RUN`, at the check that finds the button down. -/
def Obligations.LongestContinuation : Prop :=
  ∀ s : State, s.k = [.uDiagChk, .uSweep1, .uSweep2, .uRecv, .uLoop] → s.sample.rst = false →
    s.sample.diagN = false →
    step s = .next
      { elapse 1 s with
        k := [.uDiagHold, .uLit 0x04, .uTx, .uWaitAck, .uZero, .uTx, .uWaitAck, .uSweep1, .uSweep2, .uRecv, .uLoop] } ∧
    (diagOps ++ [MicroOp.uSweep1, .uSweep2, .uRecv, .uLoop]).length = 11

/-- R161: with no reset, `K` changes in four ways only. -/
def Obligations.ContinuationChangesInFourWays : Prop :=
  ∀ s t : State, s.sample.rst = false → step s = .next t →
    (s.k = [] ∧ (t.k = [] ∨ ∃ i, s.sample.cmdValid = true ∧ decode s.sample.cmd = .ok i ∧ t.k = expansion s.cfg i)) ∨
    (∃ u rest, s.k = u :: rest ∧ t.k = rest) ∨
    (∃ u rest, s.k = u :: rest ∧
      ((u = .uDiagChk ∧ s.sample.diagN = false ∧ t.k = diagOps ++ rest) ∨
       (∃ sym, u = .uSweep2 ∧ sweepKey s.cfg s.sample.keyN = some sym ∧ t.k = pulseSeq s.cfg sym ++ rest) ∨
       (∃ b, (u = .uLed b ∨ (u = .uRecv ∧ b = s.sample.outReport)) ∧ b &&& 0x07 ≠ 0x00 ∧ t.k = extraOps ++ rest) ∨
       (u = .uLoop ∧ t.k = cycleOps ++ [.uLoop]))) ∨
    (∃ u rest, s.k = u :: rest ∧ u ∈ [.uWaitCfg, .uWaitRdy, .uWaitAck, .uDiagHold] ∧ t = elapse 1 s)

/-- R20, R22, R23, R24, R25: which µops write which register. Every other step without reset leaves it as it is. -/
def Obligations.OnlyTheirWritersWriteRegisters : Prop :=
  ∀ (s t : State), s.sample.rst = false → step s = .next t →
    (t.r ≠ s.r → ∃ u ∈ s.k.head?, (∃ x, u = .uFmt x) ∨ (∃ x, u = .uLit x) ∨ u = .uClr2 ∨ u = .uZero) ∧
    (t.mod ≠ s.mod → ∃ u ∈ s.k.head?, u = .uSweep1 ∨ ∃ m, u = .uSetmod m) ∧
    ((t.num, t.caps, t.scroll, t.led0, t.led1, t.led2) ≠ (s.num, s.caps, s.scroll, s.led0, s.led1, s.led2) →
      ∃ u ∈ s.k.head?, u = .uRecv ∨ ∃ b, u = .uLed b) ∧
    (t.lkr ≠ s.lkr → ∃ u ∈ s.k.head?, ∃ x, u = .uLookup x)

/-- R56, R29: events and output pulses. `U_TX` emits one `Tx` event and pulses `tx_valid` with the eight bytes on
`tx_data`; `U_LED` and `U_RECV` emit three `Led` events; no other step without reset emits anything. -/
def Obligations.EventsAndPulses : Prop :=
  ∀ s t : State, s.sample.rst = false → step s = .next t →
    ((outputs t).txValid = true ↔ s.k.head? = some .uTx) ∧
    (s.k.head? = some .uTx →
      t.h = s.h ++ [.tx s.r] ∧
      (outputs t).txData.extractLsb' 0 8 = s.r.b0 ∧ (outputs t).txData.extractLsb' 8 8 = s.r.b1 ∧
      (outputs t).txData.extractLsb' 16 8 = s.r.b2 ∧ (outputs t).txData.extractLsb' 24 8 = s.r.b3 ∧
      (outputs t).txData.extractLsb' 32 8 = s.r.b4 ∧ (outputs t).txData.extractLsb' 40 8 = s.r.b5 ∧
      (outputs t).txData.extractLsb' 48 8 = s.r.b6 ∧ (outputs t).txData.extractLsb' 56 8 = s.r.b7) ∧
    ((s.k.head? = some .uRecv ∨ ∃ b, s.k.head? = some (.uLed b)) →
      txCount t.h = txCount s.h ∧ ledCount t.h = ledCount s.h + 3) ∧
    (s.k.head? ≠ some .uTx → s.k.head? ≠ some .uRecv → (∀ b, s.k.head? ≠ some (.uLed b)) → t.h = s.h) ∧
    ((outputs t).cmdReady = true ↔ t.k = []) ∧
    ((outputs t).cmdErr = true ↔
      s.k = [] ∧ s.sample.cmdValid = true ∧ ∃ e, decode s.sample.cmd = .error e)

/-- R23, R25, R27, R144: no rule reads the lock flags, the indicators, `LKR` or `H`. Two states that differ in these alone
step to states that differ in these alone, and emit the same events. -/
def Obligations.StatusIsNeverRead : Prop :=
  ∀ s t s' : State, withoutStatus s = withoutStatus t → step s = .next s' →
    ∃ t', step t = .next t' ∧ withoutStatus s' = withoutStatus t' ∧
      (s.sample.rst = false → ∃ es, s'.h = s.h ++ es ∧ t'.h = t.h ++ es)

/-- R128 (b), R152: the block keeps no memory of an earlier cycle's keys: what a sweep does is the same whatever `MOD`
held, so a key held over `n` cycles gives a pulse in each. -/
def Obligations.SweepsForgetEarlierCycles : Prop :=
  (∀ (s : State) (rest : List MicroOp) (m : Byte), s.k = .uSweep1 :: rest → step { s with mod := m } = step s) ∧
  (∀ (s t : State) (rest : List MicroOp) (m : Byte), s.k = .uSweep2 :: rest → s.sample.rst = false →
    step s = .next t → step { s with mod := m } = .next { t with mod := m })

/-- R81, R82: lines of the assembler notation, under the default constants, and the three pseudo-commands. -/
def Obligations.AssemblerExamples : Prop :=
  ∀ layout : Grid Byte,
    let c := defaultConfig layout
    asmLine c ['P', 'U', 'L', 'S', 'E', ' ', '\'', 'a', '\''] = some [.pulse 0x61] ∧
    asmLine c ['S', 'E', 'T', 'M', 'O', 'D', ' ', 'K', '_', 'S', 'H', 'I', 'F', 'T', ' ', ';', 'x'] =
      some [.setmod 0x02] ∧
    asmLine c ['L', 'E', 'D', 'D', 'E', 'C', ' ', '0', 'x', '0', '5'] = some [.leddec 0x05] ∧
    asmLine c ['I', 'D', 'L', 'E'] = some [.idle] ∧
    asmLine c ['S', 'E', 'N', 'D', 'H', 'O', 'S', 'T'] = some [.diag, .scan] ∧
    asmLine c ['R', 'E', 'C', 'V', 'H', 'O', 'S', 'T'] = some [.ledrx] ∧
    asmLine c ['T', 'A', 'P', ' ', '\'', ';', '\''] = some [.setmod 0x00, .pulse 0x3B]
end

