-- ==== Sys2Proof/Laws/Matrix.lean ====
section
/-! SUPPORT. The positions of the matrix: all of them, in row-major order. -/

namespace Sys2Proof.Machine

@[simp] theorem mem_positions (p : Pos) : p ∈ positions := by
  simp only [positions, List.mem_flatMap, List.mem_map]
  exact ⟨p.row, List.mem_finRange _, p.col, List.mem_finRange _, rfl⟩

theorem positions_sorted : positions.Pairwise fun p q => linearIndex p < linearIndex q := by
  decide

theorem positions_length : positions.length = 35 := by
  decide

@[simp] theorem gridGet_gridOf {α : Type} (f : Pos → α) (p : Pos) : gridGet (gridOf f) p = f p := by
  simp [gridGet, gridOf, Vector.get_eq_getElem]

theorem linearIndex_injective {p q : Pos} (h : linearIndex p = linearIndex q) : p = q := by
  obtain ⟨r, c⟩ := p
  obtain ⟨r', c'⟩ := q
  simp only [linearIndex] at h
  have := c.isLt
  have := c'.isLt
  have hr : r = r' := Fin.ext (by omega)
  subst hr
  have hc : c = c' := Fin.ext (by omega)
  rw [hc]

/-- A position cuts the sweep in two: the positions before it and those after it. -/
theorem positions_split (p : Pos) :
    ∃ l r, positions = l ++ p :: r ∧ (∀ q ∈ l, linearIndex q < linearIndex p) ∧
      (∀ q ∈ r, linearIndex p < linearIndex q) := by
  obtain ⟨l, r, h⟩ := List.append_of_mem (mem_positions p)
  have sorted := positions_sorted
  rw [h, List.pairwise_append] at sorted
  exact ⟨l, r, h, fun q hq => sorted.2.2 q hq p (by simp), (List.pairwise_cons.1 sorted.2.1).1⟩

/-- A key found by sweep 2 is a bound position's value, and no modifier's. -/
theorem sweepKey_some {c : Config} {keyN : Grid Bool} {sym : Byte} (h : sweepKey c keyN = some sym) :
    ∃ p, layoutRead c p = sym ∧ isKey c sym = true ∧ pressed keyN p = true := by
  simp only [sweepKey, Option.map_eq_some_iff] at h
  obtain ⟨p, hp, rfl⟩ := h
  have hf := List.find?_some hp
  simp only [Bool.and_eq_true] at hf
  exact ⟨p, rfl, hf.1, hf.2⟩

end Sys2Proof.Machine
end

