-- ==== Sys2Proof/Laws/Config.lean ====
section
/-! SUPPORT. The parts of a well-formed configuration, and those of the configuration of `State.reset`. -/

namespace Sys2Proof.Machine

theorem wf_parts (c : Config) : c.wf = true ↔
    c.constantsDistinct = true ∧ c.modifiersOutsideAscii = true ∧ c.sctHasA = true ∧ c.layoutOk = true := by
  simp [Config.wf, and_assoc]

theorem entryOk_none (c : Config) : c.entryOk kNone = true := by
  simp [Config.entryOk]

/-- Whether an entry is admissible does not depend on the layout it stands in. -/
theorem entryOk_defaultConfig (layout layout' : Grid Byte) (v : Byte) :
    (defaultConfig layout).entryOk v = (defaultConfig layout').entryOk v := rfl

theorem openLayout_read (p : Pos) :
    gridGet openLayout p =
      if (defaultConfig (gridOf fun _ => kNone)).entryOk (Config.freeLayoutEntry p) then Config.freeLayoutEntry p
      else kNone :=
  gridGet_gridOf _ p

theorem defaultSct_letterA : (defaultSct.get 0x41 == 0x04) = true := by
  decide +kernel

/-- A position whose value is a key's, in a well-formed configuration, has a class. -/
theorem classify_of_isKey {c : Config} (h : c.wf = true) {p : Pos} (hk : isKey c (layoutRead c p) = true) :
    classify c (layoutRead c p) ≠ .none := by
  have hl := (wf_parts c).1 h |>.2.2.2
  simp only [Config.layoutOk, List.all_eq_true] at hl
  have hp := hl p (mem_positions p)
  simp only [Config.entryOk, Bool.or_eq_true, beq_iff_eq, bne_iff_ne] at hp
  simp only [isKey, Bool.and_eq_true, bne_iff_ne, Bool.not_eq_true'] at hk
  obtain (h1 | h1) | h1 := hp
  · exact absurd h1 hk.1
  · rw [h1] at hk
    exact absurd hk.2 (by simp)
  · exact h1

end Sys2Proof.Machine
end

