-- ==== Sys2Proof/Laws/Decode.lean ====
section
/-! SUPPORT. The fields of a command word. -/

namespace Sys2Proof

theorem cmdWord_toNat (op : BitVec 4) (arg : Byte) : (cmdWord op arg).toNat = op.toNat * 256 + arg.toNat := by
  have h : arg.toNat < 2 ^ 8 := arg.isLt
  show BitVec.toNat (w := 4 + 8) (op ++ arg) = _
  rw [BitVec.toNat_append, ← Nat.shiftLeft_add_eq_or_of_lt h, Nat.shiftLeft_eq]

theorem opField_toNat (w : CmdWord) : (opField w).toNat = w.toNat / 256 := by
  have := w.isLt
  simp only [opField, BitVec.extractLsb'_toNat, Nat.shiftRight_eq_div_pow]
  omega

theorem argField_toNat (w : CmdWord) : (argField w).toNat = w.toNat % 256 := by
  simp [argField, BitVec.extractLsb'_toNat]

@[simp] theorem opField_cmdWord (op : BitVec 4) (arg : Byte) : opField (cmdWord op arg) = op := by
  have := arg.isLt
  apply BitVec.eq_of_toNat_eq
  rw [opField_toNat, cmdWord_toNat]
  omega

@[simp] theorem argField_cmdWord (op : BitVec 4) (arg : Byte) : argField (cmdWord op arg) = arg := by
  have := arg.isLt
  apply BitVec.eq_of_toNat_eq
  rw [argField_toNat, cmdWord_toNat]
  omega

/-- A word is its two fields, so that no bit of it is dropped. -/
@[simp] theorem cmdWord_fields (w : CmdWord) : cmdWord (opField w) (argField w) = w := by
  apply BitVec.eq_of_toNat_eq
  rw [cmdWord_toNat, opField_toNat, argField_toNat]
  omega

theorem noOperand_ok (w : CmdWord) (i j : Instr) :
    noOperand w i = .ok j ↔ argField w = 0x00 ∧ i = j := by
  unfold noOperand
  split <;> simp_all

end Sys2Proof
end

