-- ==== Sys2Proof/Laws/State.lean ====
section
/-! SUPPORT. One lemma per field of State and operation on it, so that no later proof unfolds a record update. -/

namespace Sys2Proof.Machine

section
variable (s : State)

@[simp] theorem beginStep_cfg : (beginStep s).cfg = s.cfg := rfl
@[simp] theorem beginStep_r : (beginStep s).r = s.r := rfl
@[simp] theorem beginStep_mod : (beginStep s).mod = s.mod := rfl
@[simp] theorem beginStep_num : (beginStep s).num = s.num := rfl
@[simp] theorem beginStep_caps : (beginStep s).caps = s.caps := rfl
@[simp] theorem beginStep_scroll : (beginStep s).scroll = s.scroll := rfl
@[simp] theorem beginStep_led0 : (beginStep s).led0 = s.led0 := rfl
@[simp] theorem beginStep_led1 : (beginStep s).led1 = s.led1 := rfl
@[simp] theorem beginStep_led2 : (beginStep s).led2 = s.led2 := rfl
@[simp] theorem beginStep_lkr : (beginStep s).lkr = s.lkr := rfl
@[simp] theorem beginStep_k : (beginStep s).k = s.k := rfl
@[simp] theorem beginStep_h : (beginStep s).h = s.h := rfl
@[simp] theorem beginStep_refusedWords : (beginStep s).refusedWords = s.refusedWords := rfl
@[simp] theorem beginStep_txValid : (beginStep s).txValid = false := rfl
@[simp] theorem beginStep_cmdErr : (beginStep s).cmdErr = false := rfl
@[simp] theorem beginStep_inputs : (beginStep s).inputs = s.inputs.tail := rfl
@[simp] theorem beginStep_tick : (beginStep s).tick = s.tick + 1 := rfl

@[simp] theorem hold_cfg : (hold s).cfg = s.cfg := rfl
@[simp] theorem hold_r : (hold s).r = s.r := rfl
@[simp] theorem hold_mod : (hold s).mod = s.mod := rfl
@[simp] theorem hold_num : (hold s).num = s.num := rfl
@[simp] theorem hold_caps : (hold s).caps = s.caps := rfl
@[simp] theorem hold_scroll : (hold s).scroll = s.scroll := rfl
@[simp] theorem hold_led0 : (hold s).led0 = s.led0 := rfl
@[simp] theorem hold_led1 : (hold s).led1 = s.led1 := rfl
@[simp] theorem hold_led2 : (hold s).led2 = s.led2 := rfl
@[simp] theorem hold_lkr : (hold s).lkr = s.lkr := rfl
@[simp] theorem hold_k : (hold s).k = s.k := rfl
@[simp] theorem hold_h : (hold s).h = s.h := rfl
@[simp] theorem hold_refusedWords : (hold s).refusedWords = s.refusedWords := rfl
@[simp] theorem hold_txValid : (hold s).txValid = s.txValid := rfl
@[simp] theorem hold_cmdErr : (hold s).cmdErr = s.cmdErr := rfl
@[simp] theorem hold_inputs : (hold s).inputs = s.inputs := rfl
@[simp] theorem hold_tick : (hold s).tick = s.tick := rfl

@[simp] theorem finish_cfg : (finish s).cfg = s.cfg := rfl
@[simp] theorem finish_r : (finish s).r = s.r := rfl
@[simp] theorem finish_mod : (finish s).mod = s.mod := rfl
@[simp] theorem finish_num : (finish s).num = s.num := rfl
@[simp] theorem finish_caps : (finish s).caps = s.caps := rfl
@[simp] theorem finish_scroll : (finish s).scroll = s.scroll := rfl
@[simp] theorem finish_led0 : (finish s).led0 = s.led0 := rfl
@[simp] theorem finish_led1 : (finish s).led1 = s.led1 := rfl
@[simp] theorem finish_led2 : (finish s).led2 = s.led2 := rfl
@[simp] theorem finish_lkr : (finish s).lkr = s.lkr := rfl
@[simp] theorem finish_k : (finish s).k = s.k.tail := rfl
@[simp] theorem finish_h : (finish s).h = s.h := rfl
@[simp] theorem finish_refusedWords : (finish s).refusedWords = s.refusedWords := rfl
@[simp] theorem finish_txValid : (finish s).txValid = s.txValid := rfl
@[simp] theorem finish_cmdErr : (finish s).cmdErr = s.cmdErr := rfl
@[simp] theorem finish_inputs : (finish s).inputs = s.inputs := rfl
@[simp] theorem finish_tick : (finish s).tick = s.tick := rfl

@[simp] theorem finishWith_cfg (us : List MicroOp) : (finishWith us s).cfg = s.cfg := rfl
@[simp] theorem finishWith_r (us : List MicroOp) : (finishWith us s).r = s.r := rfl
@[simp] theorem finishWith_mod (us : List MicroOp) : (finishWith us s).mod = s.mod := rfl
@[simp] theorem finishWith_num (us : List MicroOp) : (finishWith us s).num = s.num := rfl
@[simp] theorem finishWith_caps (us : List MicroOp) : (finishWith us s).caps = s.caps := rfl
@[simp] theorem finishWith_scroll (us : List MicroOp) : (finishWith us s).scroll = s.scroll := rfl
@[simp] theorem finishWith_led0 (us : List MicroOp) : (finishWith us s).led0 = s.led0 := rfl
@[simp] theorem finishWith_led1 (us : List MicroOp) : (finishWith us s).led1 = s.led1 := rfl
@[simp] theorem finishWith_led2 (us : List MicroOp) : (finishWith us s).led2 = s.led2 := rfl
@[simp] theorem finishWith_lkr (us : List MicroOp) : (finishWith us s).lkr = s.lkr := rfl
@[simp] theorem finishWith_k (us : List MicroOp) : (finishWith us s).k = us ++ s.k.tail := rfl
@[simp] theorem finishWith_h (us : List MicroOp) : (finishWith us s).h = s.h := rfl
@[simp] theorem finishWith_refusedWords (us : List MicroOp) : (finishWith us s).refusedWords = s.refusedWords := rfl
@[simp] theorem finishWith_txValid (us : List MicroOp) : (finishWith us s).txValid = s.txValid := rfl
@[simp] theorem finishWith_cmdErr (us : List MicroOp) : (finishWith us s).cmdErr = s.cmdErr := rfl
@[simp] theorem finishWith_inputs (us : List MicroOp) : (finishWith us s).inputs = s.inputs := rfl
@[simp] theorem finishWith_tick (us : List MicroOp) : (finishWith us s).tick = s.tick := rfl

@[simp] theorem emit_cfg (e : Event) : (emit e s).cfg = s.cfg := rfl
@[simp] theorem emit_r (e : Event) : (emit e s).r = s.r := rfl
@[simp] theorem emit_mod (e : Event) : (emit e s).mod = s.mod := rfl
@[simp] theorem emit_num (e : Event) : (emit e s).num = s.num := rfl
@[simp] theorem emit_caps (e : Event) : (emit e s).caps = s.caps := rfl
@[simp] theorem emit_scroll (e : Event) : (emit e s).scroll = s.scroll := rfl
@[simp] theorem emit_led0 (e : Event) : (emit e s).led0 = s.led0 := rfl
@[simp] theorem emit_led1 (e : Event) : (emit e s).led1 = s.led1 := rfl
@[simp] theorem emit_led2 (e : Event) : (emit e s).led2 = s.led2 := rfl
@[simp] theorem emit_lkr (e : Event) : (emit e s).lkr = s.lkr := rfl
@[simp] theorem emit_k (e : Event) : (emit e s).k = s.k := rfl
@[simp] theorem emit_h (e : Event) : (emit e s).h = s.h ++ [e] := rfl
@[simp] theorem emit_refusedWords (e : Event) : (emit e s).refusedWords = s.refusedWords := rfl
@[simp] theorem emit_txValid (e : Event) : (emit e s).txValid = s.txValid := rfl
@[simp] theorem emit_cmdErr (e : Event) : (emit e s).cmdErr = s.cmdErr := rfl
@[simp] theorem emit_inputs (e : Event) : (emit e s).inputs = s.inputs := rfl
@[simp] theorem emit_tick (e : Event) : (emit e s).tick = s.tick := rfl

@[simp] theorem writeKey_cfg (b0 b2 : Byte) : (writeKey b0 b2 s).cfg = s.cfg := rfl
@[simp] theorem writeKey_r (b0 b2 : Byte) : (writeKey b0 b2 s).r = { s.r with b0 := b0, b2 := b2 } := rfl
@[simp] theorem writeKey_mod (b0 b2 : Byte) : (writeKey b0 b2 s).mod = s.mod := rfl
@[simp] theorem writeKey_num (b0 b2 : Byte) : (writeKey b0 b2 s).num = s.num := rfl
@[simp] theorem writeKey_caps (b0 b2 : Byte) : (writeKey b0 b2 s).caps = s.caps := rfl
@[simp] theorem writeKey_scroll (b0 b2 : Byte) : (writeKey b0 b2 s).scroll = s.scroll := rfl
@[simp] theorem writeKey_led0 (b0 b2 : Byte) : (writeKey b0 b2 s).led0 = s.led0 := rfl
@[simp] theorem writeKey_led1 (b0 b2 : Byte) : (writeKey b0 b2 s).led1 = s.led1 := rfl
@[simp] theorem writeKey_led2 (b0 b2 : Byte) : (writeKey b0 b2 s).led2 = s.led2 := rfl
@[simp] theorem writeKey_lkr (b0 b2 : Byte) : (writeKey b0 b2 s).lkr = s.lkr := rfl
@[simp] theorem writeKey_k (b0 b2 : Byte) : (writeKey b0 b2 s).k = s.k := rfl
@[simp] theorem writeKey_h (b0 b2 : Byte) : (writeKey b0 b2 s).h = s.h := rfl
@[simp] theorem writeKey_refusedWords (b0 b2 : Byte) : (writeKey b0 b2 s).refusedWords = s.refusedWords := rfl
@[simp] theorem writeKey_txValid (b0 b2 : Byte) : (writeKey b0 b2 s).txValid = s.txValid := rfl
@[simp] theorem writeKey_cmdErr (b0 b2 : Byte) : (writeKey b0 b2 s).cmdErr = s.cmdErr := rfl
@[simp] theorem writeKey_inputs (b0 b2 : Byte) : (writeKey b0 b2 s).inputs = s.inputs := rfl
@[simp] theorem writeKey_tick (b0 b2 : Byte) : (writeKey b0 b2 s).tick = s.tick := rfl

@[simp] theorem writeByte2_cfg (v : Byte) : (writeByte2 v s).cfg = s.cfg := rfl
@[simp] theorem writeByte2_r (v : Byte) : (writeByte2 v s).r = { s.r with b2 := v } := rfl
@[simp] theorem writeByte2_mod (v : Byte) : (writeByte2 v s).mod = s.mod := rfl
@[simp] theorem writeByte2_num (v : Byte) : (writeByte2 v s).num = s.num := rfl
@[simp] theorem writeByte2_caps (v : Byte) : (writeByte2 v s).caps = s.caps := rfl
@[simp] theorem writeByte2_scroll (v : Byte) : (writeByte2 v s).scroll = s.scroll := rfl
@[simp] theorem writeByte2_led0 (v : Byte) : (writeByte2 v s).led0 = s.led0 := rfl
@[simp] theorem writeByte2_led1 (v : Byte) : (writeByte2 v s).led1 = s.led1 := rfl
@[simp] theorem writeByte2_led2 (v : Byte) : (writeByte2 v s).led2 = s.led2 := rfl
@[simp] theorem writeByte2_lkr (v : Byte) : (writeByte2 v s).lkr = s.lkr := rfl
@[simp] theorem writeByte2_k (v : Byte) : (writeByte2 v s).k = s.k := rfl
@[simp] theorem writeByte2_h (v : Byte) : (writeByte2 v s).h = s.h := rfl
@[simp] theorem writeByte2_refusedWords (v : Byte) : (writeByte2 v s).refusedWords = s.refusedWords := rfl
@[simp] theorem writeByte2_txValid (v : Byte) : (writeByte2 v s).txValid = s.txValid := rfl
@[simp] theorem writeByte2_cmdErr (v : Byte) : (writeByte2 v s).cmdErr = s.cmdErr := rfl
@[simp] theorem writeByte2_inputs (v : Byte) : (writeByte2 v s).inputs = s.inputs := rfl
@[simp] theorem writeByte2_tick (v : Byte) : (writeByte2 v s).tick = s.tick := rfl

@[simp] theorem writeIdle_cfg : (writeIdle s).cfg = s.cfg := rfl
@[simp] theorem writeIdle_r : (writeIdle s).r = Report.idle := rfl
@[simp] theorem writeIdle_mod : (writeIdle s).mod = s.mod := rfl
@[simp] theorem writeIdle_num : (writeIdle s).num = s.num := rfl
@[simp] theorem writeIdle_caps : (writeIdle s).caps = s.caps := rfl
@[simp] theorem writeIdle_scroll : (writeIdle s).scroll = s.scroll := rfl
@[simp] theorem writeIdle_led0 : (writeIdle s).led0 = s.led0 := rfl
@[simp] theorem writeIdle_led1 : (writeIdle s).led1 = s.led1 := rfl
@[simp] theorem writeIdle_led2 : (writeIdle s).led2 = s.led2 := rfl
@[simp] theorem writeIdle_lkr : (writeIdle s).lkr = s.lkr := rfl
@[simp] theorem writeIdle_k : (writeIdle s).k = s.k := rfl
@[simp] theorem writeIdle_h : (writeIdle s).h = s.h := rfl
@[simp] theorem writeIdle_refusedWords : (writeIdle s).refusedWords = s.refusedWords := rfl
@[simp] theorem writeIdle_txValid : (writeIdle s).txValid = s.txValid := rfl
@[simp] theorem writeIdle_cmdErr : (writeIdle s).cmdErr = s.cmdErr := rfl
@[simp] theorem writeIdle_inputs : (writeIdle s).inputs = s.inputs := rfl
@[simp] theorem writeIdle_tick : (writeIdle s).tick = s.tick := rfl

@[simp] theorem transmit_cfg : (transmit s).cfg = s.cfg := rfl
@[simp] theorem transmit_r : (transmit s).r = s.r := rfl
@[simp] theorem transmit_mod : (transmit s).mod = s.mod := rfl
@[simp] theorem transmit_num : (transmit s).num = s.num := rfl
@[simp] theorem transmit_caps : (transmit s).caps = s.caps := rfl
@[simp] theorem transmit_scroll : (transmit s).scroll = s.scroll := rfl
@[simp] theorem transmit_led0 : (transmit s).led0 = s.led0 := rfl
@[simp] theorem transmit_led1 : (transmit s).led1 = s.led1 := rfl
@[simp] theorem transmit_led2 : (transmit s).led2 = s.led2 := rfl
@[simp] theorem transmit_lkr : (transmit s).lkr = s.lkr := rfl
@[simp] theorem transmit_k : (transmit s).k = s.k := rfl
@[simp] theorem transmit_h : (transmit s).h = s.h ++ [.tx s.r] := rfl
@[simp] theorem transmit_refusedWords : (transmit s).refusedWords = s.refusedWords := rfl
@[simp] theorem transmit_txValid : (transmit s).txValid = true := rfl
@[simp] theorem transmit_cmdErr : (transmit s).cmdErr = s.cmdErr := rfl
@[simp] theorem transmit_inputs : (transmit s).inputs = s.inputs := rfl
@[simp] theorem transmit_tick : (transmit s).tick = s.tick := rfl

@[simp] theorem writeLocks_cfg (b : Byte) : (writeLocks b s).cfg = s.cfg := rfl
@[simp] theorem writeLocks_r (b : Byte) : (writeLocks b s).r = s.r := rfl
@[simp] theorem writeLocks_mod (b : Byte) : (writeLocks b s).mod = s.mod := rfl
@[simp] theorem writeLocks_num (b : Byte) : (writeLocks b s).num = numBit b := rfl
@[simp] theorem writeLocks_caps (b : Byte) : (writeLocks b s).caps = capsBit b := rfl
@[simp] theorem writeLocks_scroll (b : Byte) : (writeLocks b s).scroll = scrollBit b := rfl
@[simp] theorem writeLocks_led0 (b : Byte) : (writeLocks b s).led0 = capsBit b := rfl
@[simp] theorem writeLocks_led1 (b : Byte) : (writeLocks b s).led1 = numBit b := rfl
@[simp] theorem writeLocks_led2 (b : Byte) : (writeLocks b s).led2 = scrollBit b := rfl
@[simp] theorem writeLocks_lkr (b : Byte) : (writeLocks b s).lkr = s.lkr := rfl
@[simp] theorem writeLocks_k (b : Byte) : (writeLocks b s).k = s.k := rfl
@[simp] theorem writeLocks_h (b : Byte) : (writeLocks b s).h = s.h ++ ledEvents b := rfl
@[simp] theorem writeLocks_refusedWords (b : Byte) : (writeLocks b s).refusedWords = s.refusedWords := rfl
@[simp] theorem writeLocks_txValid (b : Byte) : (writeLocks b s).txValid = s.txValid := rfl
@[simp] theorem writeLocks_cmdErr (b : Byte) : (writeLocks b s).cmdErr = s.cmdErr := rfl
@[simp] theorem writeLocks_inputs (b : Byte) : (writeLocks b s).inputs = s.inputs := rfl
@[simp] theorem writeLocks_tick (b : Byte) : (writeLocks b s).tick = s.tick := rfl

@[simp] theorem refuseWord_cfg (w : CmdWord) : (refuseWord w s).cfg = s.cfg := rfl
@[simp] theorem refuseWord_r (w : CmdWord) : (refuseWord w s).r = s.r := rfl
@[simp] theorem refuseWord_mod (w : CmdWord) : (refuseWord w s).mod = s.mod := rfl
@[simp] theorem refuseWord_num (w : CmdWord) : (refuseWord w s).num = s.num := rfl
@[simp] theorem refuseWord_caps (w : CmdWord) : (refuseWord w s).caps = s.caps := rfl
@[simp] theorem refuseWord_scroll (w : CmdWord) : (refuseWord w s).scroll = s.scroll := rfl
@[simp] theorem refuseWord_led0 (w : CmdWord) : (refuseWord w s).led0 = s.led0 := rfl
@[simp] theorem refuseWord_led1 (w : CmdWord) : (refuseWord w s).led1 = s.led1 := rfl
@[simp] theorem refuseWord_led2 (w : CmdWord) : (refuseWord w s).led2 = s.led2 := rfl
@[simp] theorem refuseWord_lkr (w : CmdWord) : (refuseWord w s).lkr = s.lkr := rfl
@[simp] theorem refuseWord_k (w : CmdWord) : (refuseWord w s).k = s.k := rfl
@[simp] theorem refuseWord_h (w : CmdWord) : (refuseWord w s).h = s.h := rfl
@[simp] theorem refuseWord_refusedWords (w : CmdWord) : (refuseWord w s).refusedWords = s.refusedWords ++ [w] := rfl
@[simp] theorem refuseWord_txValid (w : CmdWord) : (refuseWord w s).txValid = s.txValid := rfl
@[simp] theorem refuseWord_cmdErr (w : CmdWord) : (refuseWord w s).cmdErr = true := rfl
@[simp] theorem refuseWord_inputs (w : CmdWord) : (refuseWord w s).inputs = s.inputs := rfl
@[simp] theorem refuseWord_tick (w : CmdWord) : (refuseWord w s).tick = s.tick := rfl

@[simp] theorem resetBlock_cfg : (resetBlock s).cfg = s.cfg := rfl
@[simp] theorem resetBlock_r : (resetBlock s).r = Report.idle := rfl
@[simp] theorem resetBlock_mod : (resetBlock s).mod = 0x00 := rfl
@[simp] theorem resetBlock_num : (resetBlock s).num = false := rfl
@[simp] theorem resetBlock_caps : (resetBlock s).caps = false := rfl
@[simp] theorem resetBlock_scroll : (resetBlock s).scroll = false := rfl
@[simp] theorem resetBlock_led0 : (resetBlock s).led0 = false := rfl
@[simp] theorem resetBlock_led1 : (resetBlock s).led1 = false := rfl
@[simp] theorem resetBlock_led2 : (resetBlock s).led2 = false := rfl
@[simp] theorem resetBlock_lkr : (resetBlock s).lkr = 0 := rfl
@[simp] theorem resetBlock_k : (resetBlock s).k = [] := rfl
@[simp] theorem resetBlock_h : (resetBlock s).h = [] := rfl
@[simp] theorem resetBlock_refusedWords : (resetBlock s).refusedWords = [] := rfl
@[simp] theorem resetBlock_txValid : (resetBlock s).txValid = false := rfl
@[simp] theorem resetBlock_cmdErr : (resetBlock s).cmdErr = false := rfl
@[simp] theorem resetBlock_inputs : (resetBlock s).inputs = s.inputs := rfl
@[simp] theorem resetBlock_tick : (resetBlock s).tick = s.tick := rfl

@[simp] theorem elapse_cfg (n : Nat) : (elapse n s).cfg = s.cfg := rfl
@[simp] theorem elapse_r (n : Nat) : (elapse n s).r = s.r := rfl
@[simp] theorem elapse_mod (n : Nat) : (elapse n s).mod = s.mod := rfl
@[simp] theorem elapse_num (n : Nat) : (elapse n s).num = s.num := rfl
@[simp] theorem elapse_caps (n : Nat) : (elapse n s).caps = s.caps := rfl
@[simp] theorem elapse_scroll (n : Nat) : (elapse n s).scroll = s.scroll := rfl
@[simp] theorem elapse_led0 (n : Nat) : (elapse n s).led0 = s.led0 := rfl
@[simp] theorem elapse_led1 (n : Nat) : (elapse n s).led1 = s.led1 := rfl
@[simp] theorem elapse_led2 (n : Nat) : (elapse n s).led2 = s.led2 := rfl
@[simp] theorem elapse_lkr (n : Nat) : (elapse n s).lkr = s.lkr := rfl
@[simp] theorem elapse_k (n : Nat) : (elapse n s).k = s.k := rfl
@[simp] theorem elapse_h (n : Nat) : (elapse n s).h = s.h := rfl
@[simp] theorem elapse_refusedWords (n : Nat) : (elapse n s).refusedWords = s.refusedWords := rfl
@[simp] theorem elapse_txValid (n : Nat) : (elapse n s).txValid = false := rfl
@[simp] theorem elapse_cmdErr (n : Nat) : (elapse n s).cmdErr = false := rfl
@[simp] theorem elapse_inputs (n : Nat) : (elapse n s).inputs = s.inputs.drop n := rfl
@[simp] theorem elapse_tick (n : Nat) : (elapse n s).tick = s.tick + n := rfl

end

end Sys2Proof.Machine
end

