-- ==== Sys2Proof/Laws/Ops.lean ====
section
/-! SUPPORT. What each shared operation can do, said once. -/

namespace Sys2Proof.Machine

/-- Acceptance at an open port sets `K`, and nothing else. -/
theorem accept_of_idle {s : State} (us : List MicroOp) (h : s.k = []) : accept us s = .next { s with k := us } := by
  simp [accept, h]

/-- At a busy block the port is not looked at. -/
theorem accept_of_busy {s : State} (us : List MicroOp) (h : s.k ≠ []) : accept us s = .next s := by
  unfold accept
  split <;> simp_all

theorem pulseSeq_of_none {c : Config} {sym : Byte} (h : classify c sym = .none) : pulseSeq c sym = [] := by
  simp [pulseSeq, h]

theorem pulseSeq_of_class {c : Config} {sym : Byte} (h : classify c sym ≠ .none) :
    pulseSeq c sym = pulseOps sym := by
  unfold pulseSeq
  split <;> simp_all

/-- Every command's meaning is the acceptance of its expansion. -/
theorem exec_eq_accept (i : Instr) (s : State) : exec i s = accept (expansion s.cfg i) s := by
  cases i with
  | pulse sym =>
    by_cases h : classify s.cfg sym = .none
    · simp [exec, execPulse, expansion, h, pulseSeq_of_none]
    · simp [exec, execPulse, expansion, h, pulseSeq_of_class, pulseOps]
  | _ => rfl

/-- `Format` writes nothing exactly for class `C_NONE`. -/
theorem formatKey_eq_none {c : Config} {sym m : Byte} : formatKey c sym m = none ↔ classify c sym = .none := by
  unfold formatKey
  split
  · simp [*]
  · simp [*]
  · split <;> simp [*]

theorem uopFmt_of_none {s : State} {sym : Byte} (h : formatKey s.cfg sym s.mod = none) :
    uopFmt sym s = finish s := by
  simp [uopFmt, h]

theorem uopFmt_of_some {s : State} {sym b0 b2 : Byte} (h : formatKey s.cfg sym s.mod = some (b0, b2)) :
    uopFmt sym s = finish (writeKey b0 b2 s) := by
  simp [uopFmt, h]

theorem uopLed_eq (b : Byte) (s : State) :
    uopLed b s = { writeLocks b s with k := if anyLock b then extraOps ++ s.k.tail else s.k.tail } := by
  unfold uopLed finishWith finish
  split <;> simp [writeLocks]

/-- The any-lock test reads bits 0 to 2 and no other. -/
theorem anyLock_eq (b : Byte) : anyLock b = (b &&& 0x07 != 0x00) := by
  revert b
  decide

/-- A waiting µop holds; every other µop, or one whose input is there, does its work. -/
theorem runMicroOp_of_waits {u : MicroOp} {smp : Sample} {s : State} (h : waits u smp = true) :
    runMicroOp u smp s = s := by
  cases u <;> simp_all [waits, runMicroOp, uopWaitAck, uopDiagHold, uopWaitRdy, uopWaitCfg, hold]

/-- How a µop leaves `K`: it holds, it removes itself, or it puts a sequence in front of the rest. -/
theorem runMicroOp_k (u : MicroOp) (smp : Sample) (s : State) :
    (waits u smp = true ∧ runMicroOp u smp s = s) ∨
    (runMicroOp u smp s).k = s.k.tail ∨
    (u = .uDiagChk ∧ smp.diagN = false ∧ (runMicroOp u smp s).k = diagOps ++ s.k.tail) ∨
    (∃ sym, u = .uSweep2 ∧ sweepKey s.cfg smp.keyN = some sym ∧
      (runMicroOp u smp s).k = pulseSeq s.cfg sym ++ s.k.tail) ∨
    (∃ b, (u = .uLed b ∨ (u = .uRecv ∧ b = smp.outReport)) ∧ anyLock b = true ∧
      (runMicroOp u smp s).k = extraOps ++ s.k.tail) ∨
    (u = .uLoop ∧ (runMicroOp u smp s).k = cycleOps ++ [.uLoop]) := by
  cases u with
  | uFmt sym =>
    refine .inr (.inl ?_)
    simp only [runMicroOp, uopFmt]
    split <;> rfl
  | uWaitAck => cases h : smp.ack <;> simp [runMicroOp, uopWaitAck, waits, hold, finish, h]
  | uDiagHold => cases h : smp.diagN <;> simp [runMicroOp, uopDiagHold, waits, hold, finish, h]
  | uWaitRdy => cases h : smp.hostReady <;> simp [runMicroOp, uopWaitRdy, waits, hold, finish, h]
  | uWaitCfg => cases h : smp.hostCfg <;> simp [runMicroOp, uopWaitCfg, waits, hold, finish, h]
  | uLed b => cases h : anyLock b <;> simp [runMicroOp, uopLed_eq, h]
  | uRecv => cases h : anyLock smp.outReport <;> simp [runMicroOp, uopRecv, uopLed_eq, h]
  | uSweep2 => cases h : sweepKey s.cfg smp.keyN <;> simp [runMicroOp, uopSweep2, finish, finishWith, h]
  | uDiagChk => cases h : smp.diagN <;> simp [runMicroOp, uopDiagChk, finish, finishWith, h]
  | uLoop => simp [runMicroOp, uopLoop]
  | _ => exact .inr (.inl rfl)

/-- No µop touches the configuration, the environment's samples or the marks of the command port. -/
theorem runMicroOp_keeps (u : MicroOp) (smp : Sample) (s : State) :
    (runMicroOp u smp s).cfg = s.cfg ∧ (runMicroOp u smp s).inputs = s.inputs ∧
    (runMicroOp u smp s).tick = s.tick ∧ (runMicroOp u smp s).refusedWords = s.refusedWords ∧
    (runMicroOp u smp s).cmdErr = s.cmdErr := by
  cases u <;>
    simp only [runMicroOp, uopLookup, uopSetmod, uopFmt, uopZero, uopTx, uopWaitAck, uopLed_eq, uopClr2, uopRecv,
      uopSweep1, uopSweep2, uopDiagChk, uopDiagHold, uopLit, uopWaitRdy, uopWaitCfg, uopLoop] <;>
    (try split) <;> simp

end Sys2Proof.Machine
end

