-- ==== Sys2Proof/Laws/Run.lean ====
section
/-! SUPPORT. Samples, steps and runs. -/

namespace Sys2Proof.Machine

theorem sample_eq_sampleAt (s : State) : s.sample = s.sampleAt 0 := by
  unfold State.sample State.sampleAt
  cases s.inputs <;> rfl

/-- The samples of a state depend on its script and its counter alone. -/
theorem sampleAt_congr {s t : State} (hi : s.inputs = t.inputs) (ht : s.tick = t.tick) (n : Nat) :
    s.sampleAt n = t.sampleAt n := by
  simp [State.sampleAt, hi, ht]

theorem sampleAt_of_drop {s t : State} {d : Nat} (hi : t.inputs = s.inputs.drop d) (ht : t.tick = s.tick + d)
    (n : Nat) : t.sampleAt n = s.sampleAt (d + n) := by
  simp [State.sampleAt, hi, ht, Nat.add_assoc]

@[simp] theorem sampleAt_elapse (d n : Nat) (s : State) : (elapse d s).sampleAt n = s.sampleAt (d + n) :=
  sampleAt_of_drop rfl rfl n

theorem beginStep_eq_elapse (s : State) : beginStep s = elapse 1 s := by
  simp [beginStep, elapse]

@[simp] theorem elapse_elapse (m n : Nat) (s : State) : elapse m (elapse n s) = elapse (n + m) s := by
  simp [elapse, Nat.add_assoc]

/-- A step with a reset. -/
theorem step_of_rst {s : State} (h : s.sample.rst = true) : step s = .next (resetBlock (beginStep s)) := by
  simp [step, h]

/-- A step at an open port. -/
theorem step_of_idle {s : State} (hr : s.sample.rst = false) (hk : s.k = []) :
    step s = commandPort s.sample (beginStep s) := by
  simp [step, hr, hk]

/-- A step that executes the head of `K`. -/
theorem step_of_head {s : State} {u : MicroOp} {rest : List MicroOp} (hr : s.sample.rst = false)
    (hk : s.k = u :: rest) : step s = .next (runMicroOp u s.sample (elapse 1 s)) := by
  simp [step, hr, hk, beginStep_eq_elapse]

/-- A step whose µop waits. -/
theorem step_of_waits {s : State} {u : MicroOp} {rest : List MicroOp} (hr : s.sample.rst = false)
    (hk : s.k = u :: rest) (hw : waits u s.sample = true) : step s = .next (elapse 1 s) := by
  rw [step_of_head hr hk, runMicroOp_of_waits hw]

/-- What a step can do: reset, nothing at an idle port, a command, a refused word, or the head of `K`. -/
theorem step_cases (s : State) :
    (s.sample.rst = true ∧ step s = .next (resetBlock (elapse 1 s))) ∨
    (s.sample.rst = false ∧ s.k = [] ∧ s.sample.cmdValid = false ∧ step s = .next (elapse 1 s)) ∨
    (∃ i, s.sample.rst = false ∧ s.k = [] ∧ s.sample.cmdValid = true ∧ decode s.sample.cmd = .ok i ∧
      step s = .next { elapse 1 s with k := expansion s.cfg i }) ∨
    (∃ e, s.sample.rst = false ∧ s.k = [] ∧ s.sample.cmdValid = true ∧ decode s.sample.cmd = .error e ∧
      step s = .next (refuseWord s.sample.cmd (elapse 1 s))) ∨
    (∃ u rest, s.sample.rst = false ∧ s.k = u :: rest ∧ step s = .next (runMicroOp u s.sample (elapse 1 s))) := by
  rw [← beginStep_eq_elapse]
  cases hr : s.sample.rst with
  | true => exact .inl ⟨rfl, step_of_rst hr⟩
  | false =>
    cases hk : s.k with
    | cons u rest => exact .inr (.inr (.inr (.inr ⟨u, rest, rfl, rfl, by rw [step_of_head hr hk, beginStep_eq_elapse]⟩)))
    | nil =>
      rw [step_of_idle hr hk]
      cases hv : s.sample.cmdValid with
      | false => simp [commandPort, hv]
      | true =>
        cases hd : decode s.sample.cmd with
        | error e => simp [commandPort, hv, hd]
        | ok i =>
          have : (beginStep s).k = [] := hk
          simp [commandPort, hv, hd, exec_eq_accept, accept_of_idle _ this]

@[simp] theorem runFor_zero (s : State) : runFor 0 s = .next s := rfl

theorem runFor_succ {s t : State} (n : Nat) (h : step s = .next t) : runFor (n + 1) s = runFor n t := by
  have h' : Host.Core.step Sys2Proof.core s = .next t := h
  simp only [runFor, Host.Core.run, h']
  rfl

theorem runFor_one {s t : State} (h : step s = .next t) : runFor 1 s = .next t := by
  rw [runFor_succ 0 h, runFor_zero]

/-- Runs compose. -/
theorem runFor_add {s t : State} (m n : Nat) (h : runFor m s = .next t) : runFor (m + n) s = runFor n t := by
  induction m generalizing s with
  | zero =>
    rw [runFor_zero] at h
    cases h
    rw [Nat.zero_add]
  | succ m ih =>
    obtain ⟨-, hs⟩ | ⟨-, -, -, hs⟩ | ⟨_, -, -, -, -, hs⟩ | ⟨_, -, -, -, -, hs⟩ | ⟨_, _, -, -, hs⟩ := step_cases s <;>
    · rw [runFor_succ m hs] at h
      rw [Nat.add_right_comm, runFor_succ _ hs]
      exact ih h

/-- What is known of the samples after `d` steps. -/
theorem quiet_of_drop {s t : State} {d n : Nat} (hi : t.inputs = s.inputs.drop d) (ht : t.tick = s.tick + d)
    (hq : quiet (d + n) s) : quiet n t := by
  intro m hm
  rw [sampleAt_of_drop hi ht]
  exact hq _ (by omega)

theorem ackAfter_of_drop {s t : State} {d m e : Nat} (hi : t.inputs = s.inputs.drop d) (ht : t.tick = s.tick + d)
    (ha : ackAfter (d + m) e s) : ackAfter m e t := by
  constructor
  · intro j hj
    rw [sampleAt_of_drop hi ht, ← Nat.add_assoc]
    exact ha.1 j hj
  · rw [sampleAt_of_drop hi ht, ← Nat.add_assoc]
    exact ha.2

theorem quiet_sample {s : State} {n : Nat} (hq : quiet (n + 1) s) : s.sample.rst = false := by
  rw [sample_eq_sampleAt]
  exact hq 0 (by omega)

/-- A waiting µop whose input comes `d` steps late is gone after `d + 1` steps, and nothing else has changed. -/
theorem runFor_wait {u : MicroOp} {rest : List MicroOp}
    (hu : u ∈ [MicroOp.uWaitAck, .uDiagHold, .uWaitRdy, .uWaitCfg]) (d : Nat) :
    ∀ {s : State}, s.k = u :: rest → quiet (d + 1) s → (∀ j < d, waits u (s.sampleAt j) = true) →
      waits u (s.sampleAt d) = false → runFor (d + 1) s = .next { elapse (d + 1) s with k := rest } := by
  induction d with
  | zero =>
    intro s hk hq _ hp
    rw [← sample_eq_sampleAt] at hp
    apply runFor_one
    rw [step_of_head (quiet_sample hq) hk]
    simp only [List.mem_cons, List.not_mem_nil, or_false] at hu
    rcases hu with rfl | rfl | rfl | rfl <;>
      simp_all [waits, runMicroOp, uopWaitAck, uopDiagHold, uopWaitRdy, uopWaitCfg, finish]
  | succ d ih =>
    intro s hk hq hw hp
    have h0 : waits u s.sample = true := by
      rw [sample_eq_sampleAt]
      exact hw 0 (by omega)
    rw [runFor_succ _ (step_of_waits (quiet_sample hq) hk h0), ih (s := elapse 1 s) hk]
    · simp [Nat.add_comm 1]
    · exact quiet_of_drop rfl rfl fun m hm => hq m (by omega)
    · intro j hj
      rw [sampleAt_elapse]
      exact hw _ (by omega)
    · rw [sampleAt_elapse, Nat.add_comm]
      exact hp

end Sys2Proof.Machine
end

