-- ==== Sys2Proof/Laws/Exchange.lean ====
section
/-! SUPPORT. Runs of the exchange with the host: one report and its acknowledgment, and the two reports of a pulse, in
front of whatever is left of a sequence. -/

namespace Sys2Proof.Machine

/-- A late acknowledgment ends the wait, and nothing else has changed. -/
theorem runFor_ack (d : Nat) {rest : List MicroOp} {s : State} (hk : s.k = .uWaitAck :: rest)
    (hq : quiet (d + 1) s) (ha : ackAfter 0 d s) :
    runFor (d + 1) s = .next { elapse (d + 1) s with k := rest } := by
  apply runFor_wait (by simp) d hk hq
  · intro j hj
    simpa [waits] using ha.1 j hj
  · simpa [waits] using ha.2

/-- One report and its acknowledgment, `d` steps late. -/
theorem runFor_exchange (d : Nat) {rest : List MicroOp} {s : State} (hk : s.k = .uTx :: .uWaitAck :: rest)
    (hq : quiet (1 + (d + 1)) s) (ha : ackAfter (1 + 0) d s) :
    runFor (1 + (d + 1)) s = .next { elapse (1 + (d + 1)) s with k := rest, h := s.h ++ [.tx s.r] } := by
  have htx : step s = .next
      { elapse 1 s with k := .uWaitAck :: rest, h := s.h ++ [.tx s.r], txValid := true } := by
    rw [step_of_head (quiet_sample (n := 0) fun m hm => hq m (by omega)) hk]
    simp [runMicroOp, uopTx, transmit, emit, finish, elapse, hk]
  rw [runFor_add _ _ (runFor_one htx), runFor_ack d rfl (quiet_of_drop rfl rfl hq) (ackAfter_of_drop rfl rfl ha)]
  simp only [elapse, List.drop_drop, Nat.add_assoc]

/-- The idle report is written and sent; its acknowledgment comes `e` steps late. -/
theorem runFor_idleExchange (e : Nat) {rest : List MicroOp} {s : State}
    (hk : s.k = .uZero :: .uTx :: .uWaitAck :: rest) (hq : quiet (1 + (1 + (e + 1))) s)
    (ha : ackAfter (1 + (1 + 0)) e s) :
    runFor (1 + (1 + (e + 1))) s = .next
      { elapse (1 + (1 + (e + 1))) s with k := rest, r := Report.idle, h := s.h ++ [.tx Report.idle] } := by
  have hzero : step s = .next { elapse 1 s with k := .uTx :: .uWaitAck :: rest, r := Report.idle } := by
    rw [step_of_head (quiet_sample (n := 0) fun m hm => hq m (by omega)) hk]
    simp [runMicroOp, uopZero, writeIdle, finish, elapse, hk]
  rw [runFor_add _ _ (runFor_one hzero),
    runFor_exchange e rfl (quiet_of_drop rfl rfl hq) (ackAfter_of_drop rfl rfl ha)]
  simp only [elapse, List.drop_drop, Nat.add_assoc]

/-- The report that stands in `R`, then the idle report: what every pulse does once its key-down report is written. -/
theorem runFor_reportThenIdle (d e : Nat) {rest : List MicroOp} {s : State}
    (hk : s.k = .uTx :: .uWaitAck :: .uZero :: .uTx :: .uWaitAck :: rest)
    (hq : quiet (1 + (d + 1) + (1 + (1 + (e + 1)))) s) (ha : ackAfter (1 + 0) d s)
    (hb : ackAfter (1 + (d + 1) + (1 + (1 + 0))) e s) :
    runFor (1 + (d + 1) + (1 + (1 + (e + 1)))) s = .next
      { elapse (1 + (d + 1) + (1 + (1 + (e + 1)))) s with
        k := rest, r := Report.idle, h := s.h ++ [.tx s.r, .tx Report.idle] } := by
  rw [runFor_add _ _ (runFor_exchange d hk (fun m hm => hq m (by omega)) ha),
    runFor_idleExchange e rfl (quiet_of_drop rfl rfl hq) (ackAfter_of_drop rfl rfl hb)]
  simp only [elapse, List.drop_drop, Nat.add_assoc, List.append_assoc, List.cons_append, List.nil_append]

end Sys2Proof.Machine
end

