-- ==== Sys2Proof/Laws/PerInstr.lean ====
section
/-! SUPPORT. Per instruction: its encoding is a defined word that selects the row of its own mnemonic. -/

namespace Sys2Proof.Laws.EncodingSelectsItsRow

/-- The encoded word is defined (R79), and selects a row of the opcode map with the command's mnemonic (R77). -/
def Statement (i : Instr) : Prop :=
  (encode i).defined = true ∧ ∃ row ∈ opcodeMap, row.selects (encode i) = true ∧ row.mnemonic = mnemonic i

theorem lookup (sym : Byte) : Statement (.lookup sym) :=
  ⟨by revert sym; decide, ⟨"LOOKUP", 0x100, 0xF00⟩, by decide, by revert sym; decide, rfl⟩

theorem setmod (m : Byte) : Statement (.setmod m) :=
  ⟨by revert m; decide, ⟨"SETMOD", 0x200, 0xF00⟩, by decide, by revert m; decide, rfl⟩

theorem keydown (sym : Byte) : Statement (.keydown sym) :=
  ⟨by revert sym; decide, ⟨"KEYDOWN", 0x300, 0xF00⟩, by decide, by revert sym; decide, rfl⟩

theorem idle : Statement .idle :=
  ⟨by decide, ⟨"IDLE", 0x400, 0xFFF⟩, by decide, by decide, rfl⟩

theorem xchg : Statement .xchg :=
  ⟨by decide, ⟨"XCHG", 0x500, 0xFFF⟩, by decide, by decide, rfl⟩

theorem pulse (sym : Byte) : Statement (.pulse sym) :=
  ⟨by revert sym; decide, ⟨"PULSE", 0x600, 0xF00⟩, by decide, by revert sym; decide, rfl⟩

theorem leddec (b : Byte) : Statement (.leddec b) :=
  ⟨by revert b; decide, ⟨"LEDDEC", 0x700, 0xF00⟩, by decide, by revert b; decide, rfl⟩

theorem scan : Statement .scan :=
  ⟨by decide, ⟨"SCAN", 0x800, 0xFFF⟩, by decide, by decide, rfl⟩

theorem diag : Statement .diag :=
  ⟨by decide, ⟨"DIAG", 0x900, 0xFFF⟩, by decide, by decide, rfl⟩

theorem cycle : Statement .cycle :=
  ⟨by decide, ⟨"CYCLE", 0xA00, 0xFFF⟩, by decide, by decide, rfl⟩

theorem run : Statement .run :=
  ⟨by decide, ⟨"RUN", 0xB00, 0xFFF⟩, by decide, by decide, rfl⟩

theorem ledrx : Statement .ledrx :=
  ⟨by decide, ⟨"LEDRX", 0xC00, 0xFFF⟩, by decide, by decide, rfl⟩

end Sys2Proof.Laws.EncodingSelectsItsRow
end

