-- ==== Sys2Proof/Tests/Slice0.lean ====
section
/-! SUPPORT. Tests. Expected results are the spec's: the words of 30_encoding.md rules R77 and R81, the checks of
00_scope.md rules R5 to R7, the vectors of 95_test_vectors.md. Then, for each statement of Obligations.lean with
hypotheses, a witness that meets them. -/

namespace Sys2Proof.Tests

open Sys2Proof.Machine

set_option Elab.async false

/-! ## Fixtures -/

/-- `LAYOUT_EXAMPLE` of 95_test_vectors.md. -/
def exampleLayout : Grid Byte :=
  #v[#v[0x31, 0x32, 0x33, 0x34, 0x35, 0x36, 0x37],
     #v[0x2B, 0x71, 0x77, 0x65, 0x72, 0x74, 0x38],
     #v[0x02, 0x61, 0x73, 0x64, 0x66, 0x67, 0x39],
     #v[0x01, 0x7A, 0x78, 0x63, 0x76, 0x62, 0x30],
     #v[0x04, 0x28, 0x00, 0x00, 0x00, 0x00, 0x00]]

/-- The default configuration with the example layout. -/
def config : Config := defaultConfig exampleLayout

/-- A sample with the given positions down, the host ready, no command and no reset. -/
def sampleOf (down : List Pos) : Sample where
  keyN := gridOf fun p => !down.contains p
  diagN := true
  hostCfg := true
  hostReady := true
  ack := true
  outReport := 0x00
  cmdValid := false
  cmd := 0x000
  rst := false

/-- Nothing pressed. -/
def calm : Sample := sampleOf []

/-- A sample that presents a command word. -/
def presents (w : CmdWord) : Sample := { calm with cmdValid := true, cmd := w }

/-- A block after reset with the given `K` and coming samples. -/
def block (k : List MicroOp) (inputs : List Sample) : State := { State.atReset config inputs 0 with k := k }

/-- A block that executes one µop with the given sample. -/
def one (u : MicroOp) (smp : Sample) : State := runMicroOp u smp (block [u] [])

/-! ## Decoding: every constructor's word, bit by bit -/

theorem test_decode_lookup : decode 0b000101100001 = .ok (.lookup 0x61) := by decide
theorem test_decode_setmod : decode 0b001000000010 = .ok (.setmod 0x02) := by decide
theorem test_decode_keydown : decode 0b001100100101 = .ok (.keydown 0x25) := by decide
theorem test_decode_idle : decode 0b010000000000 = .ok .idle := by decide
theorem test_decode_xchg : decode 0b010100000000 = .ok .xchg := by decide
theorem test_decode_pulse : decode 0b011001100001 = .ok (.pulse 0x61) := by decide
theorem test_decode_leddec : decode 0b011100000101 = .ok (.leddec 0x05) := by decide
theorem test_decode_scan : decode 0b100000000000 = .ok .scan := by decide
theorem test_decode_diag : decode 0b100100000000 = .ok .diag := by decide
theorem test_decode_cycle : decode 0b101000000000 = .ok .cycle := by decide
theorem test_decode_run : decode 0b101100000000 = .ok .run := by decide
theorem test_decode_ledrx : decode 0b110000000000 = .ok .ledrx := by decide
theorem test_decode_reserved_opcode : decode 0x0FF = .error (.opcode 0x0) := by decide
theorem test_decode_reserved_argument : decode 0xCFF = .error (.argument 0xC 0xFF) := by decide
theorem test_decode_all_ones_operand : decode 0x7FF = .ok (.leddec 0xFF) := by decide

theorem test_table_word : decodeTableWord 16 0x631 = some (.pulse 0x31) := by decide
theorem test_table_word_reserved : decodeTableWord 16 0x401 = none := by decide

/-- The first step after reset takes a word that stands at the port. -/
theorem test_fetch_from_reset :
    step (State.reset.withFetchWord 16 0x705) =
      .next { State.reset with k := [.uLed 0x05], tick := 1 } := rfl

/-! ## Well-formedness: an ill-formed term for each check -/

theorem smoke_opcode : CmdWord.opcodeDefined 0xD00 = false := by decide
theorem smoke_operand : CmdWord.takesOperand 0x401 = false ∧ CmdWord.defined 0x401 = false := by decide
theorem smoke_inAscii : inAscii 0x1F = false ∧ inAscii 0x80 = false := by decide
theorem smoke_constants_distinct : Config.constantsDistinct { config with kCtrl := 0x02 } = false := by decide
theorem smoke_modifier_in_ascii : Config.modifiersOutsideAscii { config with kAlt := 0x41 } = false := by decide
theorem smoke_sct_entry : Config.sctHasA { config with sct := Vector.replicate 96 0x05 } = false := by decide
theorem smoke_entry : config.entryOk 0x1F = false := by decide
theorem smoke_layout : Config.layoutOk { config with layout := gridOf fun _ => 0x80 } = false := by decide +kernel
theorem smoke_config : Config.wf { config with kTab := 0x28 } = false := by decide +kernel
theorem smoke_boot :
    boot { config with kTab := 0x28 } [] = .refused .illFormedConfig := if_neg (by decide +kernel)

/-! ## The functions and the µops, from 95_test_vectors.md -/

theorem test_lookup_a : (one (.uLookup 0x61) calm).lkr = 0x404 := by decide +kernel
theorem test_lookup_percent : (one (.uLookup 0x25) calm).lkr = 0x522 := by decide +kernel
theorem test_lookup_enter_not_paren : lookupResult config 0x28 = 0x228 := by decide +kernel
theorem test_lookup_below_and_above :
    lookupResult config 0x1F = 0x000 ∧ lookupResult config 0x80 = 0x000 := by decide +kernel
theorem test_lookup_lowest_and_highest :
    lookupResult config 0x20 = 0x42C ∧ lookupResult config 0x7F = 0x400 := by decide +kernel

/-- The 96-character string of R103. -/
theorem test_needsShift_string :
    (List.finRange 96).map (fun i => if needsShift i then '1' else '0') =
      ['0', '1', '1', '1', '1', '1', '1', '0', '1', '1', '1', '1', '0', '0', '0', '0',
       '0', '0', '0', '0', '0', '0', '0', '0', '0', '0', '1', '0', '1', '0', '1', '1'] ++
      ['1', '1', '1', '1', '1', '1', '1', '1', '1', '1', '1', '1', '1', '1', '1', '1',
       '1', '1', '1', '1', '1', '1', '1', '1', '1', '1', '1', '0', '0', '0', '1', '1'] ++
      ['0', '0', '0', '0', '0', '0', '0', '0', '0', '0', '0', '0', '0', '0', '0', '0',
       '0', '0', '0', '0', '0', '0', '0', '0', '0', '0', '0', '1', '1', '1', '1', '0'] := by decide +kernel

theorem test_setmod : (one (.uSetmod 0x02) calm).mod = 0x02 := by decide
theorem test_keydown_shift_drops_ctrl : formatKey config 0x25 0x01 = some (0x02, 0x22) := by decide +kernel
theorem test_keydown_ctrl_shiftOnly :
    formatKey { config with modPass := .shiftOnly } 0x61 0x01 = some (0x00, 0x04) := by decide +kernel
theorem test_keydown_of_modifier : formatKey config 0x02 0x01 = none := by decide +kernel
theorem test_keydown_report : (one (.uFmt 0x61) calm).r = ⟨0, 0, 0x04, 0, 0, 0, 0, 0⟩ := by decide +kernel
theorem test_idle : (runMicroOp .uZero calm { block [.uZero] [] with r := keyReport 2 4 }).r = Report.idle := by decide
theorem test_xchg_event : (one .uTx calm).h = [.tx Report.idle] := by decide
theorem test_wait_holds :
    runMicroOp .uWaitAck { calm with ack := false } (block [.uWaitAck] []) = block [.uWaitAck] [] := rfl
theorem test_pulse_of_none : execPulse 0x00 (block [] []) = .next (block [] []) := rfl
theorem test_pulse_enter : pulseSeq config 0x28 = pulseOps 0x28 := by decide
theorem test_leddec_five :
    let t := one (.uLed 0x05) calm
    (t.num, t.caps, t.scroll) = (true, false, true) ∧ (t.led0, t.led1, t.led2) = (false, true, true) ∧
      t.k = extraOps := by decide
theorem test_leddec_upper_bits : (one (.uLed 0xF8) calm).k = [] := by decide
theorem test_ledrx_six :
    let t := one .uRecv { calm with outReport := 0x06 }
    (t.num, t.caps, t.scroll) = (false, true, true) := by decide
theorem test_clr2_keeps_byte0 :
    (runMicroOp .uClr2 calm { block [.uClr2] [] with r := keyReport 0x02 0x04 }).r = keyReport 0x02 0x00 := by decide

/-- Shift, Ctrl, Alt down: `LAST` keeps Alt, `FIRST` keeps Shift. -/
theorem test_scan_modifiers :
    sweepModifier config (sampleOf [⟨2, 0⟩, ⟨3, 0⟩, ⟨4, 0⟩]).keyN = 0x04 ∧
    sweepModifier { config with modSelect := .first } (sampleOf [⟨2, 0⟩, ⟨3, 0⟩, ⟨4, 0⟩]).keyN = 0x02 := by
  decide +kernel

/-- `w` at (1,2) precedes `a` at (2,1); `7` at (0,6) precedes Tab at (1,0). -/
theorem test_scan_first_key :
    sweepKey config (sampleOf [⟨2, 1⟩, ⟨1, 2⟩]).keyN = some 0x77 ∧
    sweepKey config (sampleOf [⟨1, 0⟩, ⟨0, 6⟩]).keyN = some 0x37 := by decide +kernel

theorem test_scan_modifier_alone : sweepKey config (sampleOf [⟨2, 0⟩]).keyN = none := by decide +kernel
theorem test_diag_down : (one .uDiagChk { calm with diagN := false }).k = diagOps := by decide
theorem test_diag_literal : (one (.uLit 0x04) calm).r = keyReport 0x00 0x04 := by decide
theorem test_cycle_first : execCycle (block [] []) = .next (block cycleOps []) := rfl
theorem test_run_loop : (one .uLoop calm).k = cycleOps ++ [.uLoop] := by decide

/-- A step with `rst` in the middle of a pulse (program P7). -/
theorem test_reset_mid_pulse :
    step { block [.uWaitAck, .uZero, .uTx, .uWaitAck] [{ calm with rst := true }] with
            mod := 0x02, num := true, led1 := true, r := keyReport 0x02 0x04 } =
      .next (State.atReset config [] 1) := rfl

/-- `tx_data` under `tx_valid`. -/
theorem test_ports :
    (outputs { block [] [] with r := ⟨1, 2, 3, 4, 5, 6, 7, 8⟩, txValid := true }).txData = 0x0807060504030201 := by
  decide

theorem test_hexDigit :
    hexDigit '9' = some 9 ∧ hexDigit 'A' = some 10 ∧ hexDigit 'f' = some 15 ∧ hexDigit 'g' = none ∧ hexDigit ':' = none := by
  decide

/-! ## Witnesses: each statement's hypotheses are met together -/

theorem config_wf : config.wf = true := by decide +kernel

theorem witness_ReservedWordIsRefused :
    (block [] [presents 0x401]).k = [] ∧ (block [] [presents 0x401]).sample.rst = false ∧
    (block [] [presents 0x401]).sample.cmdValid = true ∧
    decode (block [] [presents 0x401]).sample.cmd = .error (.argument 0x4 0x01) := by decide

theorem witness_StepRunsDecodedCommand :
    (block [] [presents 0x661]).k = [] ∧ (block [] [presents 0x661]).sample.rst = false ∧
    (block [] [presents 0x661]).sample.cmdValid = true ∧
    decode (block [] [presents 0x661]).sample.cmd = .ok (.pulse 0x61) := by decide

theorem witness_StepRunsHeadOfK :
    (block [.uTx, .uWaitAck] [calm]).k = .uTx :: [.uWaitAck] ∧
    (block [.uTx, .uWaitAck] [calm]).sample.rst = false := by decide

/-- Its four other clauses share the witnesses above; this is the idle port's, and the busy block's. -/
theorem witness_CommandAcceptance :
    ((block [] [calm]).k = [] ∧ (block [] [calm]).sample.rst = false ∧ (block [] [calm]).sample.cmdValid = false) ∧
    (block [.uWaitAck] [presents 0x400]).k ≠ [] := by decide

theorem witness_BusyBlockIgnoresCommands : (block [.uLoop] []).k ≠ [] := by decide

theorem witness_ResetWinsOverEverything :
    (block [.uWaitAck] [{ calm with rst := true }]).sample.rst = true ∧ ∃ t, boot config [calm] = .next t :=
  ⟨by decide, _, if_pos config_wf⟩

theorem witness_ResetValues : config.wf = true ∧ (block [.uLoop] [{ calm with rst := true }]).sample.rst = true :=
  ⟨config_wf, rfl⟩

theorem witness_StepKeepsConfiguration : ∃ t, step (block [.uSweep1] [calm]) = .next t := ⟨_, rfl⟩

theorem witness_BootRefusesIllFormedConfiguration :
    (∃ t, boot config [] = .next t) ∧ boot { config with kTab := 0x28 } [] = .refused .illFormedConfig :=
  ⟨⟨_, if_pos config_wf⟩, smoke_boot⟩

/-- The ends of the ASCII range, the values beside them, and Enter inside it. -/
theorem witness_UsageAndShiftOfSymbol :
    classify config 0x20 = .ascii ∧ classify config 0x7F = .ascii ∧ classify config 0x28 = .direct ∧
    classify config 0x1F = .none ∧ classify config 0x80 = .none := by decide +kernel

theorem witness_UsageOfLetterA : config.wf = true ∧ config.kEnter ≠ 0x61 ∧ config.kTab ≠ 0x61 :=
  ⟨config_wf, by decide, by decide⟩

/-- Of `LookupCompletes`, `SetmodCompletes`, `KeydownCompletes` (with a class and without) and `IdleCompletes`. -/
theorem witness_oneMicroOpCommands :
    (block [] [calm]).k = [] ∧ (block [] [calm]).sample.rst = false ∧
    formatKey config 0x61 (block [] [calm]).mod = some (0x00, 0x04) ∧
    formatKey config 0x02 (block [] [calm]).mod = none := by decide +kernel

theorem witness_FormatPair :
    config.modPass = .all ∧ ({ config with modPass := .shiftOnly } : Config).modPass = .shiftOnly ∧
    (0x02 : Byte) = config.kShift ∧ (0x01 : Byte) ≠ config.kShift ∧
    (classify config 0x21 = .ascii ∧ symIndex config 0x21 = some 1 ∧ needsShift 1 = true) ∧
    (classify config 0x7F = .ascii ∧ symIndex config 0x7F = some 95 ∧ needsShift 95 = false) ∧
    classify config 0x2B = .direct ∧ classify config 0x00 = .none := by decide +kernel

theorem witness_ExchangePrimitive :
    (block [.uTx, .uWaitAck] [calm]).sample.rst = false ∧
    (block [.uWaitAck] [calm]).sample.ack = true ∧
    (block [.uWaitAck] [{ calm with ack := false }]).sample.ack = false ∧
    (block [.uWaitAck] [{ calm with ack := false }]).sample.rst = false := by decide

/-- An acknowledgment one step late. -/
def late : Sample := { calm with ack := false }

theorem witness_XchgCompletes :
    let s := block [] [calm, late, calm]
    s.k = [] ∧ quiet (2 + 1) s ∧ ackAfter 1 1 s := by decide

theorem witness_PulseCompletes :
    let s := block [] [calm, calm, late, calm, calm, calm, late, calm]
    s.k = [] ∧ (s.r.b1 = 0 ∧ s.r.b3 = 0 ∧ s.r.b4 = 0 ∧ s.r.b5 = 0 ∧ s.r.b6 = 0 ∧ s.r.b7 = 0) ∧
    formatKey s.cfg 0x61 s.mod = some (0x00, 0x04) ∧
    quiet (6 + 1 + 1) s ∧ ackAfter 2 1 s ∧ ackAfter (5 + 1) 1 s ∧ classify s.cfg 0x00 = .none := by decide +kernel

theorem witness_PulseWithoutAckIsStuck :
    let s := block [] [late, late, late, late]
    s.k = [] ∧ (s.r.b1 = 0 ∧ s.r.b3 = 0 ∧ s.r.b4 = 0 ∧ s.r.b5 = 0 ∧ s.r.b6 = 0 ∧ s.r.b7 = 0) ∧
    formatKey s.cfg 0x61 s.mod = some (0x00, 0x04) ∧
    quiet (3 + 1) s ∧ ∀ m < 3 + 1, (s.sampleAt m).ack = false := by decide +kernel

theorem witness_WaitsHaveNoTimeout :
    let s := fun u : MicroOp => block [u]
      [{ calm with ack := false, hostCfg := false, hostReady := false, diagN := false },
       { calm with ack := false, hostCfg := false, hostReady := false, diagN := false }]
    ∀ u ∈ [MicroOp.uWaitCfg, .uWaitRdy, .uWaitAck, .uDiagHold], quiet (1 + 1) (s u) ∧
      ∀ m < 1 + 1,
        (u = .uWaitCfg ∧ ((s u).sampleAt m).hostCfg = false) ∨ (u = .uWaitRdy ∧ ((s u).sampleAt m).hostReady = false) ∨
        (u = .uWaitAck ∧ ((s u).sampleAt m).ack = false) ∨ (u = .uDiagHold ∧ ((s u).sampleAt m).diagN = false) := by
  decide

theorem witness_LedUpdate :
    (block [.uLed 0x05] [calm]).k = .uLed 0x05 :: [] ∧ (block [.uLed 0x05] [calm]).sample.rst = false ∧
    (block [.uClr2, .uTx, .uWaitAck] [calm]).k = .uClr2 :: [.uTx, .uWaitAck] ∧
    (block [.uClr2, .uTx, .uWaitAck] [calm]).sample.rst = false := by decide

/-- Bit 2 alone and bits 7 to 3 alone: the boundary of the any-lock test. -/
theorem witness_LeddecCompletes :
    let s := block [] [calm, calm, calm, late, calm]
    s.k = [] ∧ (0xF8 : Byte) &&& 0x07 = 0x00 ∧ quiet 1 s ∧
    (0x04 : Byte) &&& 0x07 ≠ 0x00 ∧ quiet (4 + 1) s ∧ ackAfter 3 1 s := by decide

theorem witness_LedrxCompletes :
    let s := fun b : Byte => block [] [{ calm with outReport := b }, calm, calm, late, calm]
    ((s 0xF8).k = [] ∧ (s 0xF8).sample.outReport = 0xF8 ∧ (0xF8 : Byte) &&& 0x07 = 0x00 ∧ quiet 1 (s 0xF8)) ∧
    ((s 0x04).sample.outReport = 0x04 ∧ (0x04 : Byte) &&& 0x07 ≠ 0x00 ∧ quiet (4 + 1) (s 0x04) ∧
      ackAfter 3 1 (s 0x04)) := by decide

/-- Shift at (2,0) alone: the last and the first pressed modifier of both settings. -/
theorem witness_SweepOneRecordsModifier :
    let s := block [.uSweep1, .uSweep2] [sampleOf [⟨2, 0⟩]]
    s.k = .uSweep1 :: [.uSweep2] ∧ s.sample.rst = false ∧ s.cfg.wf = true ∧
    (layoutRead s.cfg ⟨2, 0⟩ ∈ [s.cfg.kShift, s.cfg.kCtrl, s.cfg.kAlt] ∧ gridGet s.sample.keyN ⟨2, 0⟩ = false) ∧
    ∀ q ∈ positions, q ≠ ⟨2, 0⟩ →
      ¬(layoutRead s.cfg q ∈ [s.cfg.kShift, s.cfg.kCtrl, s.cfg.kAlt] ∧ gridGet s.sample.keyN q = false) := by
  decide +kernel

/-- Enter at (4,1), the last bound position, alone. -/
theorem witness_SweepTwoReportsFirstKey :
    let s := block [.uSweep2, .uRecv] [sampleOf [⟨4, 1⟩]]
    s.k = .uSweep2 :: [.uRecv] ∧ s.sample.rst = false ∧ s.cfg.wf = true ∧
    (layoutRead s.cfg ⟨4, 1⟩ ∉ [0x00, s.cfg.kShift, s.cfg.kCtrl, s.cfg.kAlt] ∧
      gridGet s.sample.keyN ⟨4, 1⟩ = false) ∧
    ∀ q ∈ positions, q ≠ ⟨4, 1⟩ →
      ¬(layoutRead s.cfg q ∉ [0x00, s.cfg.kShift, s.cfg.kCtrl, s.cfg.kAlt] ∧ gridGet s.sample.keyN q = false) := by
  decide +kernel

/-- Two samples that agree on the modifier positions and differ elsewhere, and the other way round. -/
theorem witness_SweepsReadDisjointPositions :
    (∀ p ∈ positions, layoutRead config p ∈ [config.kShift, config.kCtrl, config.kAlt] →
      gridGet (sampleOf [⟨2, 0⟩]).keyN p = gridGet (sampleOf [⟨2, 0⟩, ⟨2, 1⟩]).keyN p) ∧
    (∀ p ∈ positions, layoutRead config p ∉ [0x00, config.kShift, config.kCtrl, config.kAlt] →
      gridGet (sampleOf [⟨2, 1⟩]).keyN p = gridGet (sampleOf [⟨2, 1⟩, ⟨2, 0⟩]).keyN p) := by
  decide +kernel

theorem witness_ScanCompletes :
    let s := block [] [calm, sampleOf [⟨2, 1⟩], calm, calm, late, calm, calm, calm, late, calm]
    let s' := block [] [calm, calm]
    (s.k = [] ∧ (s.r.b1 = 0 ∧ s.r.b3 = 0 ∧ s.r.b4 = 0 ∧ s.r.b5 = 0 ∧ s.r.b6 = 0 ∧ s.r.b7 = 0) ∧
      sweepKey s.cfg (s.sampleAt 1).keyN = some 0x61 ∧ quiet (8 + 1 + 1) s ∧ ackAfter 4 1 s ∧
      ackAfter (7 + 1) 1 s) ∧
    (sweepKey s'.cfg (s'.sampleAt 1).keyN = none ∧ quiet 2 s') ∧ s.cfg.wf = true := by decide +kernel

theorem witness_DiagnosticMicroOps :
    let down := { calm with diagN := false }
    ((block [.uDiagChk, .uRecv] [down]).k = .uDiagChk :: [.uRecv] ∧
      (block [.uDiagChk, .uRecv] [down]).sample.rst = false ∧
      (block [.uDiagChk, .uRecv] [down]).sample.diagN = false ∧ (block [.uDiagChk] [calm]).sample.diagN = true) ∧
    ((block [.uDiagHold] [calm]).sample.diagN = true ∧ (block [.uDiagHold] [calm]).sample.rst = false ∧
      (block [.uDiagHold] [down]).sample.diagN = false) ∧
    (block [.uLit 0xFF] [calm]).k = .uLit 0xFF :: [] := by decide

theorem witness_DiagCompletes :
    let up := block [] [calm]
    let down := { calm with diagN := false }
    let s := block [] [down, down, calm, calm, calm, late, calm, calm, calm, late, calm]
    (up.sample.diagN = true ∧ quiet 1 up) ∧
    s.k = [] ∧ (s.r.b1 = 0 ∧ s.r.b3 = 0 ∧ s.r.b4 = 0 ∧ s.r.b5 = 0 ∧ s.r.b6 = 0 ∧ s.r.b7 = 0) ∧
    s.sample.diagN = false ∧ quiet (8 + 1 + 1 + 1) s ∧ (∀ j < 1, (s.sampleAt (1 + j)).diagN = false) ∧
    (s.sampleAt (1 + 1)).diagN = true ∧ ackAfter (4 + 1) 1 s ∧ ackAfter (7 + 1 + 1) 1 s ∧
    (quiet (1 + 1) s ∧ ∀ j < 1, (s.sampleAt (1 + j)).diagN = false) := by decide

theorem witness_ReadinessWaits :
    ((block [.uWaitRdy] [calm]).sample.hostReady = true ∧ (block [.uWaitRdy] [calm]).sample.rst = false) ∧
    (block [.uWaitRdy] [{ calm with hostReady := false }]).sample.hostReady = false ∧
    (block [.uWaitCfg] [calm]).sample.hostCfg = true ∧
    (block [.uWaitCfg] [{ calm with hostCfg := false }]).sample.hostCfg = false := by decide

/-- The hypotheses of `CycleCompletes` as a check of a state. -/
abbrev cycleMeets (s : State) (w h d₁ e₁ d₂ e₂ d₃ : Nat) (m b : Byte) (key : Option Byte) : Prop :=
  let up := (s.sampleAt (w + 1)).diagN
  let o := if up then 0 else 7 + h + d₁ + e₁
  let q := if key = none then 0 else 6 + d₂ + e₂
  let x := if b &&& 0x07 = 0x00 then 0 else 3 + d₃
  s.k = [] ∧ s.cfg.wf = true ∧ quiet (5 + w + o + q + x) s ∧
  (∀ j < w, (s.sampleAt j).hostReady = false) ∧ (s.sampleAt w).hostReady = true ∧
  (up = false → (∀ j < h, (s.sampleAt (2 + w + j)).diagN = false) ∧ (s.sampleAt (2 + w + h)).diagN = true ∧
    ackAfter (5 + w + h) d₁ s ∧ ackAfter (8 + w + h + d₁) e₁ s) ∧
  m = sweepModifier s.cfg (s.sampleAt (2 + w + o)).keyN ∧
  key = sweepKey s.cfg (s.sampleAt (3 + w + o)).keyN ∧
  (key ≠ none → ackAfter (6 + w + o) d₂ s ∧ ackAfter (9 + w + o + d₂) e₂ s) ∧
  b = (s.sampleAt (4 + w + o + q)).outReport ∧
  (b &&& 0x07 ≠ 0x00 → ackAfter (7 + w + o + q) d₃ s)

/-- Nothing happens and nothing is late: five steps, the button up, no key, no lock bit. -/
theorem witness_CycleCompletes_shortest :
    cycleMeets (block [] (List.replicate 5 calm)) 0 0 0 0 0 0 0 0x00 0x00 none := by decide +kernel

/-- Everything happens, each wait one step longer than it need be, with a report left standing in `R`. -/
theorem witness_CycleCompletes_longest :
    let busy : Sample := { calm with hostReady := false }
    let down : Sample := { calm with diagN := false }
    let pulse := [calm, calm, late, calm, calm, calm, late, calm]
    let s := { block [] ([busy, calm, down, down, calm] ++ pulse ++ [calm, sampleOf [⟨3, 1⟩]] ++ pulse ++
      [{ calm with outReport := 0x04 }, calm, calm, late, calm]) with r := keyReport 0x02 0x04 }
    ReportInv s.r ∧ cycleMeets s 1 1 1 1 1 1 1 0x00 0x04 (some 0x7A) :=
  ⟨⟨rfl, rfl, rfl, rfl, rfl, rfl⟩, by decide +kernel⟩

/-- The shortest cycle: five steps, `K` empty after the fifth and not before. -/
theorem witness_CycleReportCount :
    let s := block [] (List.replicate 5 calm)
    s.k = [] ∧ s.cfg.wf = true ∧ quiet 5 s ∧
    (∀ j < 5, ∀ u, runFor j { s with k := cycleOps } = .next u → u.k ≠ []) ∧
    ∃ t, runFor 5 { s with k := cycleOps } = .next t ∧ t.k = [] := by
  refine ⟨rfl, config_wf, by decide, ?_, _, rfl, by decide +kernel⟩
  intro j hj u hu
  match j, hj with
  | 0, _ => cases hu; simp [cycleOps]
  | 1, _ => cases hu; simp +decide
  | 2, _ => cases hu; simp +decide
  | 3, _ => cases hu; simp +decide
  | 4, _ => cases hu; simp +decide

theorem witness_RunStartsCycles :
    let s := block [.uWaitCfg, .uLoop] [{ calm with hostCfg := false }, calm, calm]
    s.k = [.uWaitCfg, .uLoop] ∧ quiet (2 + 1) s ∧ (∀ j < 1, (s.sampleAt j).hostCfg = false) ∧
    (s.sampleAt 1).hostCfg = true ∧ (block [.uLoop] [calm]).k = [.uLoop] ∧
    (block [.uLoop] [calm]).sample.rst = false := by decide

theorem witness_RunNeverCompletes : (block [] [calm, calm]).k = [] ∧ quiet 2 (block [] [calm, calm]) := by decide

/-- A state of the device's own flow, with a key-down report about to be sent. -/
theorem witness_RunKeepsReportIdleOutsidePulses :
    (∃ t, exec .run (block [] []) = .next t) ∧
    RunFlow { block (pulseOps 0x61 ++ [.uRecv, .uLoop]) [calm] with r := Report.idle } ∧
    (block (pulseOps 0x61 ++ [.uRecv, .uLoop]) [calm]).sample.rst = false :=
  ⟨⟨_, rfl⟩,
   ⟨by decide, ⟨_, .pulse 0x61, List.suffix_refl _⟩, ⟨rfl, rfl, rfl, rfl, rfl, rfl⟩, .inl rfl⟩, by decide⟩

theorem witness_KeyDownIsFollowedByIdleReport :
    let s := { block [.uTx, .uWaitAck, .uZero, .uTx, .uWaitAck, .uRecv, .uLoop] [calm] with r := keyReport 0x02 0x04 }
    RunFlow s ∧ s.k = .uTx :: [.uWaitAck, .uZero, .uTx, .uWaitAck, .uRecv, .uLoop] ∧ s.sample.rst = false ∧
    ∃ t, step s = .next t :=
  ⟨⟨by decide, ⟨_, .pulse 0x61, ⟨[.uFmt 0x61], rfl⟩⟩, ⟨rfl, rfl, rfl, rfl, rfl, rfl⟩,
      .inr ⟨[.uTx, .uWaitAck, .uZero, .uTx, .uWaitAck], [.uRecv, .uLoop], by simp, rfl⟩⟩, rfl, rfl, _, rfl⟩

/-- A state that meets the invariants, in the middle of a pulse of `SCAN`. -/
theorem witness_StepKeepsInvariant :
    Inv (block [.uWaitAck, .uZero, .uTx, .uWaitAck] [calm]) ∧
    ∃ t, step (block [.uWaitAck, .uZero, .uTx, .uWaitAck] [calm]) = .next t :=
  ⟨⟨config_wf, ⟨rfl, rfl, rfl, rfl, rfl, rfl⟩, ⟨rfl, rfl, rfl⟩, by decide,
    ⟨_, .pulse 0x61 [] (by simp), ⟨[.uFmt 0x61, .uTx], rfl⟩⟩⟩, _, rfl⟩

theorem witness_BootEstablishesInvariant : boot config [calm] = .next (block [] [calm]) := if_pos config_wf

theorem witness_ReachableStates : Reachable (block [.uWaitCfg, .uLoop] [] |> fun s => { s with tick := 1 }) :=
  .step (block [] [presents 0xB00]) _ (.boot config _ _ (if_pos config_wf)) rfl

theorem witness_LongestContinuation :
    let s := block [.uDiagChk, .uSweep1, .uSweep2, .uRecv, .uLoop] [{ calm with diagN := false }]
    s.k = [.uDiagChk, .uSweep1, .uSweep2, .uRecv, .uLoop] ∧ s.sample.rst = false ∧ s.sample.diagN = false := by
  decide

/-- Of `ContinuationChangesInFourWays`, `OnlyTheirWritersWriteRegisters` and `EventsAndPulses`. -/
theorem witness_stepsWithoutReset :
    (block [.uLed 0x01] [calm]).sample.rst = false ∧ (∃ t, step (block [.uLed 0x01] [calm]) = .next t) ∧
    (block [.uTx, .uWaitAck] [calm]).sample.rst = false ∧ (∃ t, step (block [.uTx, .uWaitAck] [calm]) = .next t) ∧
    (∃ t, step (block [.uFmt 0x61] [calm]) = .next t) ∧ ∃ t, step (block [] [presents 0x401]) = .next t :=
  ⟨by decide, ⟨_, rfl⟩, by decide, ⟨_, rfl⟩, ⟨_, rfl⟩, _, rfl⟩

theorem witness_StatusIsNeverRead :
    withoutStatus (block [.uTx] [calm]) = withoutStatus { block [.uTx] [calm] with num := true, lkr := 0x404 } ∧
    ∃ t, step (block [.uTx] [calm]) = .next t := ⟨rfl, _, rfl⟩

theorem witness_SweepsForgetEarlierCycles :
    (block [.uSweep1, .uSweep2] [calm]).k = .uSweep1 :: [.uSweep2] ∧
    (block [.uSweep2] [calm]).k = .uSweep2 :: [] ∧ (block [.uSweep2] [calm]).sample.rst = false ∧
    ∃ t, step (block [.uSweep2] [calm]) = .next t := ⟨rfl, rfl, rfl, _, rfl⟩

end Sys2Proof.Tests
end

section
/-! SUPPORT. Proofs of 00_scope.md: which configurations a block is built with (R5, R6, R7, R201), and the one usage code
the spec fixes (R6, R102). The rules of the lookup functions stand first. -/

namespace Sys2Proof.Machine

/-! ## The lookup, class by class (R100 to R104) -/

theorem classify_eq_ascii {c : Config} {sym : Byte} :
    classify c sym = .ascii ↔
      ¬(sym = c.kEnter ∨ sym = c.kTab) ∧ 0x20 ≤ sym.toNat ∧ sym.toNat ≤ 0x7F := by
  unfold classify
  split
  case isTrue h => simp [h]
  case isFalse h => split <;> simp_all

theorem symIndex_of_ascii {c : Config} {sym : Byte} {i : Fin 96} (h : classify c sym = .ascii)
    (hi : i.val = sym.toNat - 0x20) : symIndex c sym = some i := by
  have range := (classify_eq_ascii.1 h).2
  simp [symIndex, h, range, Fin.ext_iff, hi]

theorem usage_of_ascii {c : Config} {sym : Byte} {i : Fin 96} (h : classify c sym = .ascii)
    (hi : symIndex c sym = some i) : usage c sym = c.sct.get i := by
  simp [usage, h, hi, sctRead]

theorem shiftNeeded_of_symIndex {c : Config} {sym : Byte} {i : Fin 96} (hi : symIndex c sym = some i) :
    shiftNeeded c sym = needsShift i := by
  simp [shiftNeeded, hi]

/-! ## The parts of well-formedness, as R5, R6 and R7 word them -/

/-- The values R5 keeps apart from Enter, Tab and the ASCII range: "no key" and the three modifiers. -/
abbrev reservedValues (c : Config) : List Byte := [0x00, c.kShift, c.kCtrl, c.kAlt]

theorem constantsDistinct_iff (c : Config) :
    c.constantsDistinct = true ↔
      (reservedValues c).Nodup ∧ (∀ v ∈ reservedValues c, v ≠ c.kEnter ∧ v ≠ c.kTab) ∧ c.kEnter ≠ c.kTab := by
  have parts : [kNone, c.kShift, c.kCtrl, c.kAlt, c.kEnter, c.kTab] = reservedValues c ++ [c.kEnter, c.kTab] := rfl
  rw [Config.constantsDistinct, decide_eq_true_iff, parts, List.nodup_append]
  simp only [List.nodup_cons, List.mem_cons, List.not_mem_nil, or_false, not_false_eq_true, List.nodup_nil, and_true,
    forall_eq_or_imp, forall_eq]
  tauto

theorem inAscii_eq_true (v : Byte) : inAscii v = true ↔ 0x20 ≤ v.toNat ∧ v.toNat ≤ 0x7F := by
  simp [inAscii]

/-- "No key" is 0x00, so R5's demand on the modifiers is one on all four reserved values. -/
theorem modifiersOutsideAscii_iff (c : Config) :
    c.modifiersOutsideAscii = true ↔ ∀ v ∈ reservedValues c, ¬(0x20 ≤ v.toNat ∧ v.toNat ≤ 0x7F) := by
  have noKey : inAscii 0#8 = false := by decide
  simp [Config.modifiersOutsideAscii, ← inAscii_eq_true, noKey, and_assoc]

theorem sctHasA_iff (c : Config) : c.sctHasA = true ↔ c.sct.get 0x41 = 0x04 := by
  simp [Config.sctHasA, sctRead]

theorem entryOk_iff (c : Config) (v : Byte) :
    c.entryOk v = true ↔ v ∈ reservedValues c ∨ classify c v ≠ .none := by
  simp [Config.entryOk, isModifier, or_assoc]

theorem layoutOk_iff (c : Config) : c.layoutOk = true ↔ ∀ p, c.entryOk (layoutRead c p) = true := by
  simp [Config.layoutOk]

/-- What R5, R6 and R7 require of a configuration, in the order of the rules. -/
def Admissible (c : Config) : Prop :=
  (reservedValues c).Nodup ∧
  (∀ v ∈ reservedValues c, v ≠ c.kEnter ∧ v ≠ c.kTab ∧ ¬(0x20 ≤ v.toNat ∧ v.toNat ≤ 0x7F)) ∧
  c.kEnter ≠ c.kTab ∧
  c.sct.get 0x41 = 0x04 ∧
  ∀ p : Pos, layoutRead c p ∈ reservedValues c ∨ classify c (layoutRead c p) ≠ .none

/-- The check that `boot` makes is the requirement of the rules. -/
theorem wf_iff_admissible (c : Config) : c.wf = true ↔ Admissible c := by
  rw [wf_parts, constantsDistinct_iff, modifiersOutsideAscii_iff, sctHasA_iff, layoutOk_iff]
  simp only [entryOk_iff, Admissible, ← and_assoc, forall_and]
  tauto

/-! ## Building a block (R201) -/

theorem boot_of_wf {c : Config} (h : c.wf = true) (inputs : List Sample) :
    boot c inputs = .next (State.atReset c inputs 0) :=
  if_pos h

theorem boot_of_not_wf {c : Config} (h : ¬c.wf = true) (inputs : List Sample) :
    boot c inputs = .refused .illFormedConfig :=
  if_neg h

/-- Settles O13: the check of `boot` is the requirement of R5, R6 and R7, part by part. -/
theorem bootRefusesIllFormedConfiguration : Obligations.BootRefusesIllFormedConfiguration := by
  intro c inputs
  change (Admissible c → _) ∧ (¬Admissible c → _)
  rw [← wf_iff_admissible]
  exact ⟨fun h => ⟨_, boot_of_wf h inputs, rfl, rfl⟩, fun h => boot_of_not_wf h inputs⟩

/-! ## The configuration of `State.reset` -/

theorem openLayout_entryOk (p : Pos) : resetConfig.entryOk (layoutRead resetConfig p) = true := by
  change resetConfig.entryOk (gridGet openLayout p) = true
  rw [openLayout_read]
  split
  case isTrue h => rwa [resetConfig, entryOk_defaultConfig openLayout (gridOf fun _ => kNone)]
  case isFalse => exact entryOk_none _

theorem resetConfig_wf : resetConfig.wf = true := by
  have constants : resetConfig.constantsDistinct = true := by decide
  have modifiers : resetConfig.modifiersOutsideAscii = true := by decide
  exact (wf_parts _).2 ⟨constants, modifiers, defaultSct_letterA, (layoutOk_iff _).2 openLayout_entryOk⟩

/-- Settles O14: a free layout entry is kept only where it is admissible. -/
theorem resetConfigurationIsAdmissible : Obligations.ResetConfigurationIsAdmissible :=
  boot_of_wf resetConfig_wf []

/-! ## The letter a -/

theorem classify_letterA {c : Config} (hEnter : c.kEnter ≠ 0x61) (hTab : c.kTab ≠ 0x61) :
    classify c 0x61 = .ascii := by
  have notDirect : ¬((0x61 : Byte) = c.kEnter ∨ (0x61 : Byte) = c.kTab) := not_or.2 ⟨hEnter.symm, hTab.symm⟩
  exact classify_eq_ascii.2 ⟨notDirect, by decide, by decide⟩

/-- Settles O18: `'a'` is an ASCII character at index 0x41, the entry that R6 fixes. -/
theorem usageOfLetterA : Obligations.UsageOfLetterA := by
  intro c hwf hEnter hTab
  have hclass := classify_letterA hEnter hTab
  have hindex : symIndex c 0x61 = some 0x41 := symIndex_of_ascii hclass (by decide)
  obtain ⟨-, -, hsct, -⟩ := (wf_parts c).1 hwf
  refine ⟨hindex, ?_, ?_⟩
  · rw [usage_of_ascii hclass hindex, (sctHasA_iff c).1 hsct]
  · rw [shiftNeeded_of_symIndex hindex]
    decide

end Sys2Proof.Machine
end

section
/-! SUPPORT. Proofs of 10_state.md, the steps: which register a step writes (R20 to R25), what it emits and shows on the
output ports (R27, R29), what no rule reads (R23, R25, R27, R144), and the values after reset (R33). -/

namespace Sys2Proof.Machine

/-! ## A step without reset -/

/-- A step with a reset, as `step_cases` words it. -/
theorem step_of_reset {s : State} (hr : s.sample.rst = true) : step s = .next (resetBlock (elapse 1 s)) := by
  rw [step_of_rst hr, beginStep_eq_elapse]

/-- A step at an idle port. -/
theorem step_of_noCommand {s : State} (hr : s.sample.rst = false) (hk : s.k = []) (hv : s.sample.cmdValid = false) :
    step s = .next (elapse 1 s) := by
  simp [step_of_idle hr hk, commandPort, hv, beginStep_eq_elapse]

/-- A step that accepts a command. -/
theorem step_of_command {s : State} {i : Instr} (hr : s.sample.rst = false) (hk : s.k = [])
    (hv : s.sample.cmdValid = true) (hd : decode s.sample.cmd = .ok i) :
    step s = .next { elapse 1 s with k := expansion s.cfg i } := by
  have hk' : (elapse 1 s).k = [] := hk
  simp [step_of_idle hr hk, commandPort, hv, hd, beginStep_eq_elapse, exec_eq_accept, accept_of_idle _ hk']

/-- A step that refuses a reserved word. -/
theorem step_of_reserved {s : State} {e : Reserved} (hr : s.sample.rst = false) (hk : s.k = [])
    (hv : s.sample.cmdValid = true) (hd : decode s.sample.cmd = .error e) :
    step s = .next (refuseWord s.sample.cmd (elapse 1 s)) := by
  simp [step_of_idle hr hk, commandPort, hv, hd, beginStep_eq_elapse]

/-- At an open port a step sets `K`, `cmd_err` and the mark of refused words, and no other part of the state. -/
theorem step_at_port {s t : State} (hr : s.sample.rst = false) (hk : s.k = []) (hs : step s = .next t) :
    ∃ k e w, t = { elapse 1 s with k := k, cmdErr := e, refusedWords := w } ∧
      (e = true ↔ s.sample.cmdValid = true ∧ ∃ reason, decode s.sample.cmd = .error reason) := by
  cases hv : s.sample.cmdValid with
  | false =>
    cases (step_of_noCommand hr hk hv).symm.trans hs
    exact ⟨_, _, _, rfl, by simp⟩
  | true =>
    cases hd : decode s.sample.cmd with
    | ok i =>
      cases (step_of_command hr hk hv hd).symm.trans hs
      exact ⟨_, _, _, rfl, by simp⟩
    | error reason =>
      cases (step_of_reserved hr hk hv hd).symm.trans hs
      exact ⟨_, _, _, rfl, by simp⟩

/-- Every state has a next state. -/
theorem step_total (s : State) : ∃ t, step s = .next t := by
  obtain ⟨-, h⟩ | ⟨-, -, -, h⟩ | ⟨_, -, -, -, -, h⟩ | ⟨_, -, -, -, -, h⟩ | ⟨_, _, -, -, h⟩ := step_cases s <;>
    exact ⟨_, h⟩

/-! ## What a micro-operation writes -/

/-- The report buffer after `U_FMT` (R123): bytes 0 and 2 take the pair `Format` gives, if it gives one. -/
def formattedReport (c : Config) (sym m : Byte) (r : Report) : Report :=
  match formatKey c sym m with
  | none => r
  | some (b0, b2) => { r with b0 := b0, b2 := b2 }

/-- What a µop does beside its move of `K`: the registers it writes and the events it emits. -/
def writes (u : MicroOp) (smp : Sample) (s : State) : State :=
  match u with
  | .uLookup sym => { s with lkr := lookupResult s.cfg sym }
  | .uSetmod m => { s with mod := m }
  | .uFmt sym => { s with r := formattedReport s.cfg sym s.mod s.r }
  | .uZero => writeIdle s
  | .uTx => transmit s
  | .uLed b => writeLocks b s
  | .uClr2 => writeByte2 0x00 s
  | .uRecv => writeLocks smp.outReport s
  | .uSweep1 => { s with mod := sweepModifier s.cfg smp.keyN }
  | .uLit v => writeByte2 v s
  | .uWaitAck | .uSweep2 | .uDiagChk | .uDiagHold | .uWaitRdy | .uWaitCfg | .uLoop => s

theorem uopFmt_eq (sym : Byte) (s : State) :
    uopFmt sym s = finish { s with r := formattedReport s.cfg sym s.mod s.r } := by
  unfold uopFmt formattedReport
  cases formatKey s.cfg sym s.mod <;> rfl

theorem uopSweep2_eq (smp : Sample) (s : State) :
    uopSweep2 smp s = finishWith (((sweepKey s.cfg smp.keyN).map (pulseSeq s.cfg)).getD []) s := by
  unfold uopSweep2
  cases sweepKey s.cfg smp.keyN <;> rfl

/-- `K` after a µop (R150, R161), from the `K` whose head it is. -/
def nextK (u : MicroOp) (smp : Sample) (c : Config) (k : List MicroOp) : List MicroOp :=
  match u with
  | .uDiagChk => if smp.diagN then k.tail else diagOps ++ k.tail
  | .uSweep2 => ((sweepKey c smp.keyN).map (pulseSeq c)).getD [] ++ k.tail
  | .uLed b => if anyLock b then extraOps ++ k.tail else k.tail
  | .uRecv => if anyLock smp.outReport then extraOps ++ k.tail else k.tail
  | .uLoop => cycleOps ++ [.uLoop]
  | _ => if waits u smp then k else k.tail

/-- A µop is its writes and its move of `K`. -/
theorem runMicroOp_eq (u : MicroOp) (smp : Sample) (s : State) :
    runMicroOp u smp s = { writes u smp s with k := nextK u smp s.cfg s.k } := by
  cases u with
  | uFmt sym => rw [runMicroOp, uopFmt_eq]; rfl
  | uSweep2 => rw [runMicroOp, uopSweep2_eq]; rfl
  | uLed b => rw [runMicroOp, uopLed_eq]; rfl
  | uRecv => rw [runMicroOp, uopRecv, uopLed_eq]; rfl
  | uDiagChk => rw [runMicroOp, uopDiagChk, nextK]; split <;> rfl
  | uWaitAck | uDiagHold | uWaitRdy | uWaitCfg =>
    simp only [runMicroOp, uopWaitAck, uopDiagHold, uopWaitRdy, uopWaitCfg, nextK, waits]
    split <;> simp [*] <;> rfl
  | _ => rfl

/-- The lock flags and the indicators (R23, R24). -/
def lockStatus (s : State) : Bool × Bool × Bool × Bool × Bool × Bool :=
  (s.num, s.caps, s.scroll, s.led0, s.led1, s.led2)

/-- The events a µop emits (R27), with this step's sample and the report `r` in the buffer. -/
def emitted (u : MicroOp) (smp : Sample) (r : Report) : List Event :=
  match u with
  | .uTx => [.tx r]
  | .uLed b => ledEvents b
  | .uRecv => ledEvents smp.outReport
  | _ => []

section
variable (u : MicroOp) (smp : Sample) (s : State)

/-- R20: the writers of `R`, and what each leaves in it. -/
theorem runMicroOp_r :
    (runMicroOp u smp s).r = s.r ∨
    (∃ sym, u = .uFmt sym ∧ (runMicroOp u smp s).r = formattedReport s.cfg sym s.mod s.r) ∨
    (∃ v, u = .uLit v ∧ (runMicroOp u smp s).r = { s.r with b2 := v }) ∨
    (u = .uClr2 ∧ (runMicroOp u smp s).r = { s.r with b2 := 0x00 }) ∨
    (u = .uZero ∧ (runMicroOp u smp s).r = Report.idle) := by
  rw [runMicroOp_eq]
  cases u with
  | uFmt sym => exact .inr (.inl ⟨sym, rfl, rfl⟩)
  | uLit v => exact .inr (.inr (.inl ⟨v, rfl, rfl⟩))
  | uClr2 => exact .inr (.inr (.inr (.inl ⟨rfl, rfl⟩)))
  | uZero => exact .inr (.inr (.inr (.inr ⟨rfl, rfl⟩)))
  | _ => exact .inl rfl

/-- R22: the writers of `MOD`. -/
theorem runMicroOp_mod : (runMicroOp u smp s).mod = s.mod ∨ u = .uSweep1 ∨ ∃ m, u = .uSetmod m := by
  rw [runMicroOp_eq]
  cases u with
  | uSweep1 => exact .inr (.inl rfl)
  | uSetmod m => exact .inr (.inr ⟨m, rfl⟩)
  | _ => exact .inl rfl

/-- R23, R24: the writers of the flags and the indicators, and what they leave in them. -/
theorem runMicroOp_lockStatus :
    lockStatus (runMicroOp u smp s) = lockStatus s ∨
    ∃ b, (u = .uLed b ∨ (u = .uRecv ∧ b = smp.outReport)) ∧
      lockStatus (runMicroOp u smp s) = (numBit b, capsBit b, scrollBit b, capsBit b, numBit b, scrollBit b) := by
  rw [runMicroOp_eq]
  cases u with
  | uLed b => exact .inr ⟨b, .inl rfl, rfl⟩
  | uRecv => exact .inr ⟨_, .inr ⟨rfl, rfl⟩, rfl⟩
  | _ => exact .inl rfl

/-- R25: the writer of `LKR`. -/
theorem runMicroOp_lkr :
    (runMicroOp u smp s).lkr = s.lkr ∨
    ∃ sym, u = .uLookup sym ∧ (runMicroOp u smp s).lkr = lookupResult s.cfg sym := by
  rw [runMicroOp_eq]
  cases u with
  | uLookup sym => exact .inr ⟨sym, rfl, rfl⟩
  | _ => exact .inl rfl

/-- R29: `tx_valid` rises at `U_TX` alone. -/
theorem runMicroOp_txValid : (runMicroOp u smp s).txValid = (u == .uTx || s.txValid) := by
  rw [runMicroOp_eq]
  cases u <;> rfl

theorem runMicroOp_h : (runMicroOp u smp s).h = s.h ++ emitted u smp s.r := by
  rw [runMicroOp_eq]
  cases u with
  | uTx | uLed | uRecv => rfl
  | _ => exact (List.append_nil _).symm

end

/-! ## The writers of each register -/

/-- Settles O50: at an open port no register changes, and at the head of `K` its µop is a writer of what changes. -/
theorem onlyTheirWritersWriteRegisters : Obligations.OnlyTheirWritersWriteRegisters := by
  intro s t hr hs
  cases hk : s.k with
  | nil =>
    obtain ⟨k, e, w, rfl, -⟩ := step_at_port hr hk hs
    exact ⟨fun h => absurd rfl h, fun h => absurd rfl h, fun h => absurd rfl h, fun h => absurd rfl h⟩
  | cons u rest =>
    cases (step_of_head hr hk).symm.trans hs
    simp only [List.head?_cons, Option.mem_some_iff, exists_eq_left']
    refine ⟨fun h => ?_, fun h => ?_, fun h => ?_, fun h => ?_⟩
    · obtain kept | ⟨sym, hu, -⟩ | ⟨v, hu, -⟩ | ⟨hu, -⟩ | ⟨hu, -⟩ := runMicroOp_r u s.sample (elapse 1 s)
      · exact absurd kept h
      · exact .inl ⟨sym, hu⟩
      · exact .inr (.inl ⟨v, hu⟩)
      · exact .inr (.inr (.inl hu))
      · exact .inr (.inr (.inr hu))
    · exact (runMicroOp_mod u s.sample (elapse 1 s)).resolve_left h
    · obtain ⟨b, hu | ⟨hu, -⟩, -⟩ := (runMicroOp_lockStatus u s.sample (elapse 1 s)).resolve_left h
      · exact .inr ⟨b, hu⟩
      · exact .inl hu
    · obtain ⟨sym, hu, -⟩ := (runMicroOp_lkr u s.sample (elapse 1 s)).resolve_left h
      exact ⟨sym, hu⟩

/-! ## Events and output pulses -/

theorem txCount_append (h es : List Event) : txCount (h ++ es) = txCount h + txCount es :=
  List.countP_append

theorem ledCount_append (h es : List Event) : ledCount (h ++ es) = ledCount h + ledCount es :=
  List.countP_append

theorem toNat_byte_append {n : Nat} (x : Byte) (y : BitVec n) : (x ++ y).toNat = x.toNat * 2 ^ n + y.toNat := by
  rw [BitVec.toNat_append, ← Nat.shiftLeft_add_eq_or_of_lt y.isLt, Nat.shiftLeft_eq]

theorem packReport_toNat (r : Report) :
    (packReport r).toNat = r.b7.toNat * 2 ^ 56 + (r.b6.toNat * 2 ^ 48 + (r.b5.toNat * 2 ^ 40 + (r.b4.toNat * 2 ^ 32 +
      (r.b3.toNat * 2 ^ 24 + (r.b2.toNat * 2 ^ 16 + (r.b1.toNat * 2 ^ 8 + r.b0.toNat)))))) := by
  refine (toNat_byte_append _ _).trans ?_
  simp only [toNat_byte_append]

/-- R29, R54: byte `i` of the report stands at bits `8*i+7` to `8*i` of the bus. -/
theorem packReport_bytes (r : Report) :
    (packReport r).extractLsb' 0 8 = r.b0 ∧ (packReport r).extractLsb' 8 8 = r.b1 ∧
    (packReport r).extractLsb' 16 8 = r.b2 ∧ (packReport r).extractLsb' 24 8 = r.b3 ∧
    (packReport r).extractLsb' 32 8 = r.b4 ∧ (packReport r).extractLsb' 40 8 = r.b5 ∧
    (packReport r).extractLsb' 48 8 = r.b6 ∧ (packReport r).extractLsb' 56 8 = r.b7 := by
  refine ⟨?_, ?_, ?_, ?_, ?_, ?_, ?_, ?_⟩ <;>
  · apply BitVec.eq_of_toNat_eq
    rw [BitVec.extractLsb'_toNat, packReport_toNat, Nat.shiftRight_eq_div_pow]
    omega

/-- Settles O51: at an open port the port's own lemma, at the head of `K` what its µop emits. -/
theorem eventsAndPulses : Obligations.EventsAndPulses := by
  intro s t hr hs
  have hready : (outputs t).cmdReady = true ↔ t.k = [] := List.isEmpty_iff
  cases hk : s.k with
  | nil =>
    obtain ⟨k, e, w, rfl, herr⟩ := step_at_port hr hk hs
    refine ⟨by simp [outputs], by simp, by simp, fun _ _ _ => rfl, hready, ?_⟩
    simpa [outputs] using herr
  | cons u rest =>
    cases (step_of_head hr hk).symm.trans hs
    have hh := runMicroOp_h u s.sample (elapse 1 s)
    obtain ⟨-, -, -, -, herr⟩ := runMicroOp_keeps u s.sample (elapse 1 s)
    simp only [List.head?_cons, Option.some.injEq]
    refine ⟨?_, ?_, ?_, ?_, hready, ?_⟩
    · simp [outputs, runMicroOp_txValid]
    · rintro rfl
      exact ⟨hh, packReport_bytes s.r⟩
    · rintro (rfl | ⟨b, rfl⟩) <;>
      · rw [hh, txCount_append, ledCount_append]
        exact ⟨rfl, rfl⟩
    · intro hTx hRecv hLed
      cases u with
      | uTx => exact absurd rfl hTx
      | uRecv => exact absurd rfl hRecv
      | uLed b => exact absurd rfl (hLed b)
      | _ => exact hh.trans (List.append_nil _)
    · simp [outputs, herr]

/-! ## The status that no rule reads -/

/-- A µop does the same to the rest of the state, whatever the status. -/
theorem withoutStatus_runMicroOp (u : MicroOp) (smp : Sample) (s : State) :
    withoutStatus (runMicroOp u smp (withoutStatus s)) = withoutStatus (runMicroOp u smp s) := by
  rw [runMicroOp_eq, runMicroOp_eq]
  cases u <;> rfl

/-- The state without its status steps as the state does, and what it then has of `H` is what the step emits. -/
theorem step_withoutStatus {s s' : State} (hs : step s = .next s') :
    ∃ v, step (withoutStatus s) = .next v ∧ withoutStatus s' = withoutStatus v ∧
      (s.sample.rst = false → s'.h = s.h ++ v.h) := by
  obtain ⟨hr, h⟩ | ⟨hr, hk, hv, h⟩ | ⟨i, hr, hk, hv, hd, h⟩ | ⟨e, hr, hk, hv, hd, h⟩ | ⟨u, rest, hr, hk, h⟩ :=
    step_cases s <;>
    cases h.symm.trans hs
  · refine ⟨_, step_of_reset (s := withoutStatus s) hr, rfl, fun h0 => ?_⟩
    simp [hr] at h0
  · exact ⟨_, step_of_noCommand (s := withoutStatus s) hr hk hv, rfl, fun _ => (List.append_nil _).symm⟩
  · exact ⟨_, step_of_command (s := withoutStatus s) hr hk hv hd, rfl, fun _ => (List.append_nil _).symm⟩
  · exact ⟨_, step_of_reserved (s := withoutStatus s) hr hk hv hd, rfl, fun _ => (List.append_nil _).symm⟩
  · refine ⟨_, step_of_head (s := withoutStatus s) hr hk, (withoutStatus_runMicroOp u _ (elapse 1 s)).symm, fun _ => ?_⟩
    rw [runMicroOp_h, runMicroOp_h]
    rfl

/-- Settles O52: both states step as the one state that is left of them without the status. -/
theorem statusIsNeverRead : Obligations.StatusIsNeverRead := by
  intro s t s' hst hs
  obtain ⟨t', ht⟩ := step_total t
  obtain ⟨v, hv, hsv, hsh⟩ := step_withoutStatus hs
  obtain ⟨v', hv', htv, hth⟩ := step_withoutStatus ht
  rw [← hst, hv] at hv'
  cases hv'
  have hsample : s.sample = t.sample := show (withoutStatus s).sample = (withoutStatus t).sample by rw [hst]
  exact ⟨t', ht, hsv.trans htv.symm, fun hr => ⟨v.h, hsh hr, hth (hsample ▸ hr)⟩⟩

/-! ## The values after reset -/

/-- Settles O10: `boot` of a well-formed configuration and a step with a reset both end in `State.atReset`. -/
theorem resetValues : Obligations.ResetValues :=
  ⟨fun _ inputs hwf => boot_of_wf hwf inputs, fun _ hr => step_of_rst hr, fun _ _ _ => rfl⟩

end Sys2Proof.Machine
end

section
/-! SUPPORT. Proofs of 10_state.md, the invariants: the continuations a block can hold (R59, R160, R161), and what every
step keeps (R21, R24, R105, R160). -/

namespace Sys2Proof.Machine

/-! ## The continuations -/

/-- What must stand behind a µop in `K`: `U_WAITACK` behind `U_TX` (R59), and behind a µop that can put a sequence in front
of the rest (R161) one of the rests that `Sequence` lists for it. -/
def RestOk (u : MicroOp) (rest : List MicroOp) : Prop :=
  match u with
  | .uTx => rest.head? = some .uWaitAck
  | .uDiagChk => rest ∈ [[], [.uSweep1, .uSweep2, .uRecv], [.uSweep1, .uSweep2, .uRecv, .uLoop]]
  | .uSweep2 => rest ∈ [[], [.uRecv], [.uRecv, .uLoop]]
  | .uLed _ | .uRecv => rest ∈ [[], [.uLoop]]
  | _ => True

/-- Every µop of `K` has behind it what it must. -/
def WellFollowed : List MicroOp → Prop
  | [] => True
  | u :: rest => RestOk u rest ∧ WellFollowed rest

theorem expansion_pulse (c : Config) (sym : Byte) : expansion c (.pulse sym) = pulseSeq c sym := by
  by_cases h : classify c sym = .none
  · simp [expansion, h, pulseSeq_of_none]
  · simp [expansion, h, pulseSeq_of_class, pulseOps]

theorem pulseSeq_cases (c : Config) (sym : Byte) : pulseSeq c sym = [] ∨ pulseSeq c sym = pulseOps sym := by
  by_cases h : classify c sym = .none
  · exact .inl (pulseSeq_of_none h)
  · exact .inr (pulseSeq_of_class h)

/-- A sequence has the right rests, and no more than eleven µops (R160). -/
theorem Sequence.wellFollowed_and_length_le {full : List MicroOp} (h : Sequence full) :
    WellFollowed full ∧ full.length ≤ 11 := by
  cases h with
  | command c i =>
    cases i with
    | pulse sym =>
      rw [expansion_pulse]
      obtain h | h := pulseSeq_cases c sym <;> simp [h, pulseOps, WellFollowed, RestOk]
    | _ => simp [expansion, WellFollowed, RestOk]
  | loop => simp [cycleOps, WellFollowed, RestOk]
  | diag rest h =>
    simp only [List.mem_cons, List.not_mem_nil, or_false] at h
    obtain rfl | rfl | rfl := h <;> simp [diagOps, WellFollowed, RestOk]
  | pulse sym rest h =>
    simp only [List.mem_cons, List.not_mem_nil, or_false] at h
    obtain rfl | rfl | rfl := h <;> simp [pulseOps, WellFollowed, RestOk]
  | extra rest h =>
    simp only [List.mem_cons, List.not_mem_nil, or_false] at h
    obtain rfl | rfl := h <;> simp [extraOps, WellFollowed, RestOk]

theorem WellFollowed.of_suffix {k full : List MicroOp} (h : k <:+ full) (hf : WellFollowed full) : WellFollowed k := by
  obtain ⟨done, rfl⟩ := h
  induction done with
  | nil => exact hf
  | cons u done ih => exact ih hf.2

theorem LegalK.wellFollowed {k : List MicroOp} (h : LegalK k) : WellFollowed k := by
  obtain ⟨full, hfull, hk⟩ := h
  exact hfull.wellFollowed_and_length_le.1.of_suffix hk

theorem LegalK.length_le {k : List MicroOp} (h : LegalK k) : k.length ≤ 11 := by
  obtain ⟨full, hfull, hk⟩ := h
  exact hk.length_le.trans hfull.wellFollowed_and_length_le.2

theorem LegalK.of_sequence {k : List MicroOp} (h : Sequence k) : LegalK k :=
  ⟨k, h, List.suffix_refl k⟩

theorem LegalK.tail {u : MicroOp} {rest : List MicroOp} (h : LegalK (u :: rest)) : LegalK rest := by
  obtain ⟨full, hfull, hk⟩ := h
  exact ⟨full, hfull, (List.suffix_cons u rest).trans hk⟩

theorem legalK_nil : LegalK [] :=
  ⟨_, .loop, List.nil_suffix⟩

theorem txThenWait_cons (u : MicroOp) (rest : List MicroOp) :
    txThenWait (u :: rest) = ((u != .uTx || rest.head? == some .uWaitAck) && txThenWait rest) := by
  cases rest <;> simp [txThenWait]

/-- R59: a well followed `U_TX` has its `U_WAITACK`. -/
theorem txThenWait_of_wellFollowed {k : List MicroOp} (h : WellFollowed k) : txThenWait k = true := by
  induction k with
  | nil => rfl
  | cons u rest ih =>
    obtain ⟨hu, hrest⟩ := h
    rw [txThenWait_cons, ih hrest]
    by_cases hTx : u = .uTx
    · subst hTx
      have hw : rest.head? = some .uWaitAck := hu
      simp [hw]
    · simp [hTx]

/-- R160, R161: a µop at the head of a legal `K` leaves a legal `K`. -/
theorem legalK_runMicroOp {u : MicroOp} {rest : List MicroOp} {smp : Sample} {s : State} (hk : s.k = u :: rest)
    (h : LegalK s.k) : LegalK (runMicroOp u smp s).k := by
  have hrest : LegalK s.k.tail := by
    rw [hk] at h ⊢
    exact h.tail
  have hu : RestOk u s.k.tail := by
    rw [hk] at h ⊢
    exact h.wellFollowed.1
  obtain ⟨-, hs⟩ | ht | ⟨rfl, -, ht⟩ | ⟨sym, rfl, -, ht⟩ | ⟨b, hub, -, ht⟩ | ⟨rfl, ht⟩ := runMicroOp_k u smp s
  · rwa [hs]
  · rwa [ht]
  · rw [ht]
    exact .of_sequence (.diag _ hu)
  · rw [ht]
    obtain hp | hp := pulseSeq_cases s.cfg sym
    · rwa [hp]
    · rw [hp]
      exact .of_sequence (.pulse sym _ hu)
  · rw [ht]
    obtain rfl | ⟨rfl, -⟩ := hub <;> exact .of_sequence (.extra _ hu)
  · rw [ht]
    exact .of_sequence .loop

/-! ## The registers -/

theorem reportInv_idle : ReportInv Report.idle :=
  ⟨rfl, rfl, rfl, rfl, rfl, rfl⟩

theorem reportInv_formattedReport {c : Config} {sym m : Byte} {r : Report} (h : ReportInv r) :
    ReportInv (formattedReport c sym m r) := by
  unfold formattedReport
  split <;> exact h

/-- R21: no µop writes bytes 1 and 3 to 7 but with 0x00. -/
theorem reportInv_runMicroOp (u : MicroOp) (smp : Sample) {s : State} (h : ReportInv s.r) :
    ReportInv (runMicroOp u smp s).r := by
  obtain hr | ⟨sym, -, hr⟩ | ⟨v, -, hr⟩ | ⟨-, hr⟩ | ⟨-, hr⟩ := runMicroOp_r u smp s <;> rw [hr]
  · exact h
  · exact reportInv_formattedReport h
  · exact h
  · exact h
  · exact reportInv_idle

/-- R24: the indicators are the flags. -/
theorem lamps_runMicroOp (u : MicroOp) (smp : Sample) {s : State}
    (h : s.led0 = s.caps ∧ s.led1 = s.num ∧ s.led2 = s.scroll) :
    (runMicroOp u smp s).led0 = (runMicroOp u smp s).caps ∧ (runMicroOp u smp s).led1 = (runMicroOp u smp s).num ∧
      (runMicroOp u smp s).led2 = (runMicroOp u smp s).scroll := by
  obtain hl | ⟨b, -, hl⟩ := runMicroOp_lockStatus u smp s <;>
    simp_all [lockStatus]

/-- R105: the class code in a lookup's result is that of a class. -/
theorem lkClass_lookupResult (c : Config) (sym : Byte) : lkClass (lookupResult c sym) = classCode (classify c sym) :=
  BitVec.extractLsb'_append_eq_left

theorem classCode_ne_three (k : SymClass) : classCode k ≠ 0b11 := by
  cases k <;> decide

theorem lookup_runMicroOp (u : MicroOp) (smp : Sample) {s : State} (h : lkClass s.lkr ≠ 0b11) :
    lkClass (runMicroOp u smp s).lkr ≠ 0b11 := by
  obtain hl | ⟨sym, -, hl⟩ := runMicroOp_lkr u smp s <;> rw [hl]
  · exact h
  · rw [lkClass_lookupResult]
    exact classCode_ne_three _

/-! ## The invariants -/

theorem inv_atReset {c : Config} (h : c.wf = true) (inputs : List Sample) (n : Nat) : Inv (State.atReset c inputs n) where
  config := h
  report := reportInv_idle
  lamps := ⟨rfl, rfl, rfl⟩
  lookup := show lkClass 0 ≠ 0b11 by decide
  continuation := legalK_nil

theorem inv_runMicroOp {u : MicroOp} {rest : List MicroOp} {smp : Sample} {s : State} (hk : s.k = u :: rest) (h : Inv s) :
    Inv (runMicroOp u smp s) where
  config := (runMicroOp_keeps u smp s).1 ▸ h.config
  report := reportInv_runMicroOp u smp h.report
  lamps := lamps_runMicroOp u smp h.lamps
  lookup := lookup_runMicroOp u smp h.lookup
  continuation := legalK_runMicroOp hk h.continuation

/-- What `elapse` changes, the invariants do not speak of. -/
theorem inv_elapse {s : State} (n : Nat) (h : Inv s) : Inv (elapse n s) :=
  ⟨h.config, h.report, h.lamps, h.lookup, h.continuation⟩

/-- Settles O45: a reset establishes the invariants, the command port changes `K` alone among what they speak of, and each
µop keeps each of them. -/
theorem stepKeepsInvariant : Obligations.StepKeepsInvariant := by
  intro s t h hs
  have h' := inv_elapse 1 h
  obtain ⟨-, hn⟩ | ⟨-, -, -, hn⟩ | ⟨i, -, -, -, -, hn⟩ | ⟨e, -, -, -, -, hn⟩ | ⟨u, rest, -, hk, hn⟩ := step_cases s <;>
    cases hn.symm.trans hs
  · exact inv_atReset h.config _ _
  · exact h'
  · exact { h' with continuation := .of_sequence (.command s.cfg i) }
  · exact ⟨h.config, h.report, h.lamps, h.lookup, h.continuation⟩
  · exact inv_runMicroOp hk h'

theorem inv_boot {c : Config} {inputs : List Sample} {t : State} (h : boot c inputs = .next t) : Inv t := by
  by_cases hwf : c.wf = true
  · cases (boot_of_wf hwf inputs).symm.trans h
    exact inv_atReset hwf inputs 0
  · cases (boot_of_not_wf hwf inputs).symm.trans h

/-- Settles O46: both are the state after reset of a well-formed configuration. -/
theorem bootEstablishesInvariant : Obligations.BootEstablishesInvariant :=
  ⟨inv_atReset resetConfig_wf [] 0, fun _ _ _ h => inv_boot h⟩

/-- The invariants hold in every state a block can reach. -/
theorem Reachable.inv {s : State} (h : Reachable s) : Inv s := by
  induction h with
  | boot c inputs s h => exact inv_boot h
  | step s t _ h ih => exact stepKeepsInvariant s t ih h

/-- Settles O47: R21 and R24 are invariants, and R59 and the bound of R160 follow from that on `K`. -/
theorem reachableStates : Obligations.ReachableStates := by
  intro s hs
  have h := hs.inv
  exact ⟨h.report, h.lamps, txThenWait_of_wellFollowed h.continuation.wellFollowed, h.continuation.length_le⟩

end Sys2Proof.Machine
end

section
/-! SUPPORT. Proofs of 20_memory.md: no step writes the configuration, each takes one sample (R53, R62), and a sweep reads
the key lines of its own positions alone (R62, R152, R153). -/

namespace Sys2Proof.Machine

/-! ## The configuration and the samples (R53, R62) -/

/-- Every step leaves the configuration and moves the environment on by one sample, a reset too. -/
theorem step_keepsEnvironment {s t : State} (hs : step s = .next t) :
    t.cfg = s.cfg ∧ t.inputs = s.inputs.drop 1 ∧ t.tick = s.tick + 1 := by
  obtain ⟨-, h⟩ | ⟨-, -, -, h⟩ | ⟨i, -, -, -, -, h⟩ | ⟨e, -, -, -, -, h⟩ | ⟨u, rest, -, -, h⟩ := step_cases s <;>
    cases h.symm.trans hs
  case inr.inr.inr.inr =>
    obtain ⟨hcfg, hinputs, htick, -, -⟩ := runMicroOp_keeps u s.sample (elapse 1 s)
    exact ⟨hcfg, hinputs, htick⟩
  all_goals exact ⟨rfl, rfl, rfl⟩

/-- Settles O12: with one sample consumed and the counter one on, every later sample comes one step sooner. -/
theorem stepKeepsConfiguration : Obligations.StepKeepsConfiguration := by
  intro s t hs
  obtain ⟨hcfg, hinputs, htick⟩ := step_keepsEnvironment hs
  refine ⟨hcfg, by rw [hinputs, List.drop_one], fun n => ?_⟩
  rw [sampleAt_of_drop hinputs htick, Nat.add_comm]

/-! ## The positions a sweep reads (R152, R153) -/

theorem isModifier_iff (c : Config) (v : Byte) : isModifier c v = true ↔ v ∈ [c.kShift, c.kCtrl, c.kAlt] := by
  simp [isModifier, or_assoc]

theorem isKey_iff (c : Config) (v : Byte) : isKey c v = true ↔ v ∉ [0x00, c.kShift, c.kCtrl, c.kAlt] := by
  simp [isKey, isModifier, and_assoc]

/-- A sweep looks at a key line only behind its test of the position's value. -/
theorem and_pressed_congr {test : Bool} {g g' : Grid Bool} {p : Pos} (h : test = true → gridGet g p = gridGet g' p) :
    (test && pressed g p) = (test && pressed g' p) := by
  cases test with
  | false => rfl
  | true => simp only [pressed, h rfl]

theorem sweepModifier_congr {c : Config} {g g' : Grid Bool}
    (h : ∀ p, isModifier c (layoutRead c p) = true → gridGet g p = gridGet g' p) :
    sweepModifier c g = sweepModifier c g' := by
  have same := fun p => and_pressed_congr (h p)
  simp only [sweepModifier, same]

theorem sweepKey_congr {c : Config} {g g' : Grid Bool}
    (h : ∀ p, isKey c (layoutRead c p) = true → gridGet g p = gridGet g' p) :
    sweepKey c g = sweepKey c g' := by
  have same := fun p => and_pressed_congr (h p)
  simp only [sweepKey, same]

/-- Settles O34: the tests of the two sweeps are membership of the modifiers, and absence from them and "no key". -/
theorem sweepsReadDisjointPositions : Obligations.SweepsReadDisjointPositions := fun c _ _ =>
  ⟨fun h => sweepModifier_congr fun p hp => h p ((isModifier_iff c _).1 hp),
    fun h => sweepKey_congr fun p hp => h p ((isKey_iff c _).1 hp)⟩

end Sys2Proof.Machine
end

section
/-! SUPPORT. Proofs of 30_encoding.md: the round trip of the command word (R77, R78), the opcode map (R77), the reserved
words (R79, R186), and assembler lines (R81, R82). -/

namespace Sys2Proof.Machine

/-! ## The round trip (R77, R78) -/

@[simp] theorem decode_encode (i : Instr) : decode (encode i) = .ok i := by
  cases i <;> simp [encode, decode, noOperand]

/-- A word whose fields are those of an encoding is that encoding. -/
theorem cmdWord_of_fields {w : CmdWord} {op : BitVec 4} {arg : Byte} (hop : (opField w).toNat = op.toNat)
    (harg : argField w = arg) : cmdWord op arg = w := by
  rw [← BitVec.eq_of_toNat_eq hop, ← harg, cmdWord_fields]

theorem encode_of_decode {w : CmdWord} {i : Instr} (h : decode w = .ok i) : encode i = w := by
  unfold decode at h
  split at h
  case h_1 hop | h_2 hop | h_3 hop | h_6 hop | h_7 hop =>
    cases h
    exact cmdWord_of_fields hop rfl
  case h_4 hop | h_5 hop | h_8 hop | h_9 hop | h_10 hop | h_11 hop | h_12 hop =>
    obtain ⟨harg, rfl⟩ := (noOperand_ok w _ i).1 h
    exact cmdWord_of_fields hop harg
  case h_13 => cases h

/-- Settles O2: a decoded command is put back field by field, and an encoding has the fields it was made of. -/
theorem decodeInvertsEncode : Obligations.DecodeInvertsEncode := fun _ i =>
  ⟨encode_of_decode, by rintro rfl; exact decode_encode i⟩

/-! ## The opcode map (R77) -/

theorem encodingSelectsItsRow : ∀ i : Instr, Laws.EncodingSelectsItsRow.Statement i
  | .lookup sym => Laws.EncodingSelectsItsRow.lookup sym
  | .setmod m => Laws.EncodingSelectsItsRow.setmod m
  | .keydown sym => Laws.EncodingSelectsItsRow.keydown sym
  | .idle => Laws.EncodingSelectsItsRow.idle
  | .xchg => Laws.EncodingSelectsItsRow.xchg
  | .pulse sym => Laws.EncodingSelectsItsRow.pulse sym
  | .leddec b => Laws.EncodingSelectsItsRow.leddec b
  | .scan => Laws.EncodingSelectsItsRow.scan
  | .diag => Laws.EncodingSelectsItsRow.diag
  | .cycle => Laws.EncodingSelectsItsRow.cycle
  | .run => Laws.EncodingSelectsItsRow.run
  | .ledrx => Laws.EncodingSelectsItsRow.ledrx

/-- Every row of the map compares all four bits of the opcode. -/
theorem opField_of_selects {row : OpcodeRow} {w : CmdWord} (hrow : row ∈ opcodeMap) (h : row.selects w = true) :
    opField row.pattern = opField w := by
  have hmask : ∀ row ∈ opcodeMap, opField row.mask = BitVec.allOnes 4 := by decide
  have hand : w &&& row.mask = row.pattern := by simpa [OpcodeRow.selects] using h
  calc opField row.pattern
      = opField w &&& opField row.mask := by rw [← hand]; exact BitVec.extractLsb'_and
    _ = opField w := by rw [hmask row hrow, BitVec.and_allOnes]

/-- No two rows have one opcode, so that a word selects at most one. -/
theorem selected_rows_le_one (w : CmdWord) : (opcodeMap.filter (·.selects w)).length ≤ 1 := by
  have hone : ∀ op, opcodeMap.countP (fun row => opField row.pattern == op) ≤ 1 := by decide
  rw [← List.countP_eq_length_filter]
  refine (List.countP_mono_left fun row hrow h => ?_).trans (hone (opField w))
  exact beq_iff_eq.2 (opField_of_selects hrow h)

/-- A row whose mask is 0xFFF is selected by its pattern alone. -/
theorem pattern_of_selects {name : String} {p w : CmdWord} (h : OpcodeRow.selects ⟨name, p, 0xFFF⟩ w = true) :
    p = w := by
  have hand : w &&& BitVec.allOnes 12 = p := by simpa [OpcodeRow.selects] using h
  rw [← hand, BitVec.and_allOnes]

/-- A selected row names a command that the word encodes. -/
theorem encoded_of_selects {row : OpcodeRow} {w : CmdWord} (hrow : row ∈ opcodeMap) (h : row.selects w = true) :
    ∃ i, encode i = w ∧ mnemonic i = row.mnemonic := by
  have hword : cmdWord (opField row.pattern) (argField w) = w := by
    rw [opField_of_selects hrow h, cmdWord_fields]
  simp only [opcodeMap, List.mem_cons, List.not_mem_nil, or_false] at hrow
  obtain rfl | rfl | rfl | rfl | rfl | rfl | rfl | rfl | rfl | rfl | rfl | rfl := hrow
  · exact ⟨.lookup (argField w), hword, rfl⟩
  · exact ⟨.setmod (argField w), hword, rfl⟩
  · exact ⟨.keydown (argField w), hword, rfl⟩
  · exact ⟨.idle, pattern_of_selects h, rfl⟩
  · exact ⟨.xchg, pattern_of_selects h, rfl⟩
  · exact ⟨.pulse (argField w), hword, rfl⟩
  · exact ⟨.leddec (argField w), hword, rfl⟩
  · exact ⟨.scan, pattern_of_selects h, rfl⟩
  · exact ⟨.diag, pattern_of_selects h, rfl⟩
  · exact ⟨.cycle, pattern_of_selects h, rfl⟩
  · exact ⟨.run, pattern_of_selects h, rfl⟩
  · exact ⟨.ledrx, pattern_of_selects h, rfl⟩

/-- Settles O3: through the round trip, a word that decodes is an encoding, which selects the row of its command, and a
selected row names the command the word encodes. -/
theorem decoderFollowsOpcodeMap : Obligations.DecoderFollowsOpcodeMap := by
  intro w
  refine ⟨selected_rows_le_one w, fun i hi => ?_, fun row hrow h => ?_⟩
  · obtain rfl := encode_of_decode hi
    exact (encodingSelectsItsRow i).2
  · obtain ⟨i, rfl, hname⟩ := encoded_of_selects hrow h
    exact ⟨i, decode_encode i, hname⟩

/-! ## The reserved words (R79, R186) -/

/-- The opcodes of the commands with an operand (R78). -/
def operandOpcodes : List (BitVec 4) := [0x1, 0x2, 0x3, 0x6, 0x7]

/-- The opcodes of the commands without operand (R79). -/
def plainOpcodes : List (BitVec 4) := [0x4, 0x5, 0x8, 0x9, 0xA, 0xB, 0xC]

/-- What R79 asks of the fields of a word that is not reserved. -/
def FieldsDefined (op : BitVec 4) (arg : Byte) : Prop :=
  op ∈ operandOpcodes ∨ op ∈ plainOpcodes ∧ arg = 0x00

/-- Each of the sixteen opcodes is of one of three kinds (R79). -/
theorem opcode_kinds : ∀ op : BitVec 4,
    (op ∈ [0x0, 0xD, 0xE, 0xF] ↔ op ∉ operandOpcodes ∧ op ∉ plainOpcodes) ∧
    (op ∈ plainOpcodes → op ∉ operandOpcodes) := by
  decide

theorem decode_ok_iff (w : CmdWord) : (∃ i, decode w = .ok i) ↔ FieldsDefined (opField w) (argField w) := by
  constructor
  · rintro ⟨i, hi⟩
    obtain rfl := encode_of_decode hi
    cases i <;> simp [encode, FieldsDefined, operandOpcodes, plainOpcodes]
  · rintro (hop | ⟨hop, harg⟩)
    · simp only [operandOpcodes, List.mem_cons, List.not_mem_nil, or_false] at hop
      obtain h | h | h | h | h := hop <;> simp [decode, h]
    · simp only [plainOpcodes, List.mem_cons, List.not_mem_nil, or_false] at hop
      obtain h | h | h | h | h | h | h := hop <;> simp [decode, noOperand, h, harg]

theorem decode_error_iff (w : CmdWord) :
    (∃ e, decode w = .error e) ↔
      opField w ∈ [0x0, 0xD, 0xE, 0xF] ∨ opField w ∈ plainOpcodes ∧ argField w ≠ 0x00 := by
  have herror : (∃ e, decode w = .error e) ↔ ¬∃ i, decode w = .ok i := by
    cases decode w <;> simp
  obtain ⟨hundefined, hplain⟩ := opcode_kinds (opField w)
  rw [herror, decode_ok_iff, FieldsDefined, hundefined]
  tauto

theorem opcodeDefined_iff (w : CmdWord) :
    w.opcodeDefined = true ↔ opField w ∈ operandOpcodes ∨ opField w ∈ plainOpcodes := by
  rw [CmdWord.opcodeDefined, ← opField_toNat]
  generalize opField w = op
  revert op
  decide

theorem takesOperand_iff (w : CmdWord) : w.takesOperand = true ↔ opField w ∈ operandOpcodes := by
  rw [CmdWord.takesOperand, ← opField_toNat]
  generalize opField w = op
  revert op
  decide

theorem byte_eq_zero (v : Byte) : v = 0x00 ↔ v.toNat = 0 := BitVec.toNat_inj (y := 0#8) |>.symm

theorem defined_iff (w : CmdWord) : w.defined = true ↔ FieldsDefined (opField w) (argField w) := by
  simp only [CmdWord.defined, Bool.and_eq_true, Bool.or_eq_true, opcodeDefined_iff, takesOperand_iff, beq_iff_eq,
    FieldsDefined, byte_eq_zero, argField_toNat]
  tauto

/-- A count over `k` blocks of `m` numbers, block by block. -/
theorem countP_range_mul (p : Nat → Bool) (k m : Nat) :
    (List.range (k * m)).countP p = ((List.range k).map fun i => (List.range m).countP fun j => p (i * m + j)).sum := by
  induction k with
  | zero => simp
  | succ k ih =>
    simp only [Nat.succ_mul, List.range_add, List.countP_append, ih, List.countP_map, List.range_succ, List.map_append,
      List.sum_append]
    simp [Function.comp_def]

theorem ofNat_eq_cmdWord (i : Nat) {j : Nat} (hj : j < 256) :
    BitVec.ofNat 12 (i * 256 + j) = cmdWord (.ofNat 4 i) (.ofNat 8 j) := by
  apply BitVec.eq_of_toNat_eq
  rw [cmdWord_toNat]
  simp only [BitVec.toNat_ofNat]
  omega

/-- Of the 256 words with one opcode, how many are defined: all with an operand, one without, none of a reserved
opcode. -/
theorem definedWords_of_opcode (i : Nat) :
    (List.range 256).countP (fun j => CmdWord.defined (BitVec.ofNat 12 (i * 256 + j))) =
      if BitVec.ofNat 4 i ∈ operandOpcodes then 256 else if BitVec.ofNat 4 i ∈ plainOpcodes then 1 else 0 := by
  have hword : ∀ j ∈ List.range 256, CmdWord.defined (BitVec.ofNat 12 (i * 256 + j)) = true ↔
      FieldsDefined (.ofNat 4 i) (.ofNat 8 j) := fun j hj => by
    rw [ofNat_eq_cmdWord i (List.mem_range.1 hj), defined_iff, opField_cmdWord, argField_cmdWord]
  split_ifs with hop hplain
  · rw [List.countP_eq_length.2 fun j hj => (hword j hj).2 (.inl hop), List.length_range]
  · have hzero : ∀ j ∈ List.range 256, FieldsDefined (.ofNat 4 i) (.ofNat 8 j) ↔ (j == 0) = true := fun j hj => by
      have := List.mem_range.1 hj
      simp only [FieldsDefined, hop, hplain, false_or, true_and, byte_eq_zero, BitVec.toNat_ofNat, beq_iff_eq]
      omega
    rw [List.countP_congr fun j hj => (hword j hj).trans (hzero j hj)]
    exact List.count_eq_one_of_mem List.nodup_range (by simp)
  · exact List.countP_eq_zero.2 fun j hj h => by simpa [FieldsDefined, hop, hplain] using (hword j hj).1 h

theorem definedWords_count :
    (List.range 4096).countP (fun n => CmdWord.defined (BitVec.ofNat 12 n)) = 1287 := by
  rw [show 4096 = 16 * 256 from rfl, countP_range_mul]
  simp only [definedWords_of_opcode]
  decide

/-- Settles O4: the words that decode and the defined words are told by the same fields, the reserved ones by what is
left; the count goes opcode by opcode. -/
theorem reservedWordIsRefused : Obligations.ReservedWordIsRefused :=
  ⟨decode_error_iff, fun w => (defined_iff w).trans (decode_ok_iff w).symm, definedWords_count,
    fun _ _ hk hr hv hd => step_of_reserved hr hk hv hd⟩

/-! ## Fixed words and lines (R77, R81, R82) -/

/-- Settles O1: the decoder run on each of the fifteen words. -/
theorem specWordsDecode : Obligations.SpecWordsDecode := by
  unfold Obligations.SpecWordsDecode
  decide

/-- Settles O54: the assembler run on each of the seven lines; it reads no layout entry, so the layout stays free. -/
theorem assemblerExamples : Obligations.AssemblerExamples := fun _ => ⟨rfl, rfl, rfl, rfl, rfl, rfl, rfl⟩

end Sys2Proof.Machine
end

section
/-! SUPPORT. Proofs of 40_lookup.md: the class, index, usage and shift of a symbolic value (R100 to R104), and `LOOKUP`
(R105). -/

namespace Sys2Proof.Machine

/-! ## The class (R100) -/

theorem classify_eq_direct {c : Config} {sym : Byte} :
    classify c sym = .direct ↔ sym = c.kEnter ∨ sym = c.kTab := by
  unfold classify
  split
  case isTrue h => simp [h]
  case isFalse h => split <;> simp [h]

/-- Class `C_NONE` is what the other two classes leave. -/
theorem classify_eq_none {c : Config} {sym : Byte} :
    classify c sym = .none ↔
      ¬(sym = c.kEnter ∨ sym = c.kTab) ∧ ¬(0x20 ≤ sym.toNat ∧ sym.toNat ≤ 0x7F) := by
  have others : classify c sym = .none ↔ classify c sym ≠ .direct ∧ classify c sym ≠ .ascii := by
    cases classify c sym <;> simp
  rw [others, ne_eq, classify_eq_direct, ne_eq, classify_eq_ascii]
  tauto

/-- Settles O15: the three arms of `Class`, one lemma each. -/
theorem classOfSymbol : Obligations.ClassOfSymbol := fun _ _ =>
  ⟨classify_eq_direct, classify_eq_ascii, classify_eq_none⟩

/-! ## Index, usage and shift (R101, R102, R104) -/

/-- R101: the subtraction stays in the table. -/
theorem exists_symIndex_of_ascii {c : Config} {sym : Byte} (h : classify c sym = .ascii) :
    ∃ i : Fin 96, symIndex c sym = some i ∧ i.val = sym.toNat - 0x20 := by
  obtain ⟨-, -, upper⟩ := classify_eq_ascii.1 h
  exact ⟨⟨sym.toNat - 0x20, by omega⟩, symIndex_of_ascii h rfl, rfl⟩

theorem symIndex_of_not_ascii {c : Config} {sym : Byte} (h : classify c sym ≠ .ascii) : symIndex c sym = none := by
  unfold symIndex
  split
  case h_1 ascii => exact absurd ascii h
  all_goals rfl

/-- R104: outside class `C_ASCII` no Shift is forced. -/
theorem shiftNeeded_of_not_ascii {c : Config} {sym : Byte} (h : classify c sym ≠ .ascii) :
    shiftNeeded c sym = false := by
  simp [shiftNeeded, symIndex_of_not_ascii h]

theorem usage_of_direct {c : Config} {sym : Byte} (h : classify c sym = .direct) : usage c sym = sym := by
  simp [usage, h]

theorem usage_of_none {c : Config} {sym : Byte} (h : classify c sym = .none) : usage c sym = 0x00 := by
  simp [usage, h]

/-- Settles O16: an ASCII character reads the table at its index; the other two classes have no index. -/
theorem usageAndShiftOfSymbol : Obligations.UsageAndShiftOfSymbol := by
  intro c sym
  refine ⟨fun h => ?_, fun h => ?_, fun h => ?_⟩
  · obtain ⟨i, hi, hval⟩ := exists_symIndex_of_ascii h
    exact ⟨i, hi, hval, usage_of_ascii h hi, shiftNeeded_of_symIndex hi⟩
  · have notAscii : classify c sym ≠ .ascii := by simp [h]
    exact ⟨symIndex_of_not_ascii notAscii, usage_of_direct h, shiftNeeded_of_not_ascii notAscii⟩
  · have notAscii : classify c sym ≠ .ascii := by simp [h]
    exact ⟨symIndex_of_not_ascii notAscii, usage_of_none h, shiftNeeded_of_not_ascii notAscii⟩

/-! ## The shift-needed predicate (R103) -/

theorem needsShift_iff (i : Fin 96) : needsShift i = true ↔
    (1 ≤ i.val ∧ i.val ≤ 6) ∨ (8 ≤ i.val ∧ i.val ≤ 11) ∨ i.val = 26 ∨ i.val = 28 ∨
      (30 ≤ i.val ∧ i.val ≤ 58) ∨ i.val = 62 ∨ i.val = 63 ∨ (91 ≤ i.val ∧ i.val ≤ 94) := by
  simp only [needsShift, Bool.or_eq_true, Bool.and_eq_true, decide_eq_true_eq, beq_iff_eq, or_assoc]

/-- Settles O17: the six ranges read off the definition, and a count over the 96 indices. -/
theorem needsShiftRanges : Obligations.NeedsShiftRanges :=
  ⟨needsShift_iff, by decide⟩

/-! ## `LOOKUP` (R105) -/

/-- A command at an open port is accepted, and sets `K` alone. -/
theorem exec_of_idle {s : State} (i : Instr) (hk : s.k = []) : exec i s = .next { s with k := expansion s.cfg i } := by
  rw [exec_eq_accept, accept_of_idle _ hk]

/-- A sequence of one µop, for one step. -/
theorem runFor_single {s : State} (u : MicroOp) (hr : s.sample.rst = false) :
    runFor 1 { s with k := [u] } = .next (runMicroOp u s.sample { elapse 1 s with k := [u] }) :=
  runFor_one (step_of_head hr rfl)

/-- R25: bit 8 lies below the class code, on top of the usage. -/
theorem lkShift_lookupResult (c : Config) (sym : Byte) : lkShift (lookupResult c sym) = shiftNeeded c sym := by
  have belowClass : lkShift (lookupResult c sym) =
      (BitVec.ofBool (shiftNeeded c sym) ++ usage c sym).getLsbD 8 := BitVec.getLsbD_append
  rw [belowClass, BitVec.getLsbD_append]
  simp

/-- R25: bits 7 to 0 lie below the class code and the shift bit. -/
theorem lkUsage_lookupResult (c : Config) (sym : Byte) : lkUsage (lookupResult c sym) = usage c sym := by
  have belowClass : lkUsage (lookupResult c sym) =
      (BitVec.ofBool (shiftNeeded c sym) ++ usage c sym).extractLsb' 0 8 :=
    BitVec.extractLsb'_append_eq_of_add_le (by decide)
  rw [belowClass, BitVec.extractLsb'_append_eq_right]

/-- Settles O19: the one µop of the expansion writes `LKR`, whose three fields are class, shift and usage. -/
theorem lookupCompletes : Obligations.LookupCompletes := by
  intro s sym hk hr
  refine ⟨exec_of_idle _ hk, lookupResult s.cfg sym, ?_, ?_, lkShift_lookupResult _ _, lkUsage_lookupResult _ _⟩
  · rw [runFor_single _ hr]
    simp [runMicroOp, uopLookup, finish, elapse, hk]
  · rw [lkClass_lookupResult]
    cases classify s.cfg sym <;> rfl

end Sys2Proof.Machine
end

section
/-! SUPPORT. Proofs of 41_report.md: the report buffer in the flow of `RUN` (R128, R141, R155, R159, R214), the byte pair of
a report (R120, R121), the commands of the formatter and the exchange (R122 to R127), and what the sweeps forget (R128,
R152). -/

namespace Sys2Proof.Machine

/-! ## The continuations of `RUN` (R159) -/

/-- What `K` is under `RUN`: not empty, and what is left of a sequence of `RUN`. -/
def RunK (k : List MicroOp) : Prop :=
  k ≠ [] ∧ ∃ full, RunSequence full ∧ k <:+ full

/-- What stands behind a µop in a `K` of `RUN`: at least `U_LOOP`; behind a µop that can put a sequence in front of the
rest, the one rest it has under `RUN`; behind a write of a key-down report, the rest of its pulse. The µops of the last
line do not occur under `RUN`. -/
def RunRest (u : MicroOp) (rest : List MicroOp) : Prop :=
  match u with
  | .uLoop => True
  | .uDiagChk => rest = [.uSweep1, .uSweep2, .uRecv, .uLoop]
  | .uSweep2 => rest = [.uRecv, .uLoop]
  | .uRecv => rest = [.uLoop]
  | .uFmt _ | .uLit _ => ∃ rest', rest = [.uTx, .uWaitAck, .uZero, .uTx, .uWaitAck] ++ rest'
  | .uZero | .uTx | .uWaitAck | .uClr2 | .uSweep1 | .uDiagHold | .uWaitRdy | .uWaitCfg => rest ≠ []
  | .uLookup _ | .uSetmod _ | .uLed _ => False

/-- What holds at each place of a list holds at its head and at each place of its tail. -/
theorem forall_suffix_cons {p : MicroOp → List MicroOp → Prop} {v : MicroOp} {k : List MicroOp} :
    (∀ u rest, u :: rest <:+ v :: k → p u rest) ↔ p v k ∧ ∀ u rest, u :: rest <:+ k → p u rest := by
  simp [List.suffix_cons_iff, or_imp, forall_and]

/-- Each place of the five sequences of `RUN` has the right rest. -/
theorem RunSequence.runRest {full : List MicroOp} (h : RunSequence full) :
    ∀ u rest, u :: rest <:+ full → RunRest u rest := by
  cases h <;> simp [cycleOps, diagOps, pulseOps, extraOps, forall_suffix_cons, RunRest]

theorem RunSequence.runK {k : List MicroOp} (h : RunSequence k) : RunK k :=
  ⟨(by rintro rfl; cases h), k, h, List.suffix_refl k⟩

theorem RunK.tail {u : MicroOp} {rest : List MicroOp} (h : RunK (u :: rest)) (hne : rest ≠ []) : RunK rest := by
  obtain ⟨-, full, hfull, hk⟩ := h
  exact ⟨hne, full, hfull, (List.suffix_cons u rest).trans hk⟩

theorem RunK.runRest {u : MicroOp} {rest : List MicroOp} (h : RunK (u :: rest)) : RunRest u rest := by
  obtain ⟨-, full, hfull, hk⟩ := h
  exact hfull.runRest u rest hk

/-- R159, R161: the head of a `K` of `RUN` leaves a `K` of `RUN`. -/
theorem runK_nextK {u : MicroOp} {rest : List MicroOp} (smp : Sample) (c : Config) (h : RunK (u :: rest)) :
    RunK (nextK u smp c (u :: rest)) := by
  have hrest := h.runRest
  cases u with
  | uLoop => exact RunSequence.cycle.runK
  | uDiagChk =>
    subst hrest
    cases hd : smp.diagN with
    | true => simpa [nextK, hd] using h.tail (by simp)
    | false => simpa [nextK, hd] using RunSequence.diag.runK
  | uSweep2 =>
    subst hrest
    have htail : RunK [.uRecv, .uLoop] := h.tail (by simp)
    cases hs : sweepKey c smp.keyN with
    | none => simpa [nextK, hs] using htail
    | some sym =>
      obtain hp | hp := pulseSeq_cases c sym
      · simpa [nextK, hs, hp] using htail
      · simpa [nextK, hs, hp] using (RunSequence.pulse sym).runK
  | uRecv =>
    subst hrest
    cases hl : anyLock smp.outReport with
    | true => simpa [nextK, hl] using RunSequence.extra.runK
    | false => simpa [nextK, hl] using h.tail (by simp)
  | uLookup | uSetmod | uLed => exact hrest.elim
  | uFmt | uLit =>
    obtain ⟨rest', rfl⟩ := hrest
    exact h.tail (by simp)
  | uZero | uTx | uClr2 | uSweep1 => exact h.tail hrest
  | uWaitAck | uDiagHold | uWaitRdy | uWaitCfg =>
    simp only [nextK]
    split
    · exact h
    · exact h.tail hrest

/-! ## The report buffer under `RUN` (R128, R141) -/

/-- The three places of a pulse where a key-down report stands in `R`. -/
theorem keyDownStands_cons {u : MicroOp} {rest : List MicroOp} : keyDownStands (u :: rest) ↔
    (u = .uTx ∧ ∃ rest', rest = .uWaitAck :: .uZero :: .uTx :: .uWaitAck :: rest') ∨
    (u = .uWaitAck ∧ ∃ rest', rest = .uZero :: .uTx :: .uWaitAck :: rest') ∨
    (u = .uZero ∧ ∃ rest', rest = .uTx :: .uWaitAck :: rest') := by
  simp [keyDownStands]

/-- R128 (a): a write of a key-down report enters the pulse, `U_ZERO` leaves it, `U_CLR2` finds the report idle, and no
other µop writes `R`. -/
theorem idleOrKeyDown_runMicroOp {u : MicroOp} {rest : List MicroOp} {smp : Sample} {s : State} (hk : s.k = u :: rest)
    (hrest : RunRest u rest) (h : s.r = Report.idle ∨ keyDownStands s.k) :
    (runMicroOp u smp s).r = Report.idle ∨ keyDownStands (runMicroOp u smp s).k := by
  rw [runMicroOp_eq]
  rw [hk, keyDownStands_cons] at h
  cases u with
  | uFmt | uLit =>
    obtain ⟨rest', rfl⟩ := hrest
    exact .inr (by simp [nextK, waits, hk, keyDownStands_cons])
  | uZero => exact .inl rfl
  | uClr2 =>
    have hr : s.r = Report.idle := by simpa using h
    exact .inl (by simp [writes, hr, Report.idle])
  | uTx =>
    refine h.imp id fun h => ?_
    obtain ⟨rest', rfl⟩ : ∃ rest', rest = .uWaitAck :: .uZero :: .uTx :: .uWaitAck :: rest' := by simpa using h
    simp [nextK, waits, hk, keyDownStands_cons]
  | uWaitAck =>
    refine h.imp id fun h => ?_
    obtain ⟨rest', rfl⟩ : ∃ rest', rest = .uZero :: .uTx :: .uWaitAck :: rest' := by simpa using h
    cases ha : smp.ack <;> simp [nextK, waits, ha, hk, keyDownStands_cons]
  | _ => exact .inl (show s.r = Report.idle by simpa using h)

theorem runFlow_elapse {s : State} (n : Nat) (h : RunFlow s) : RunFlow (elapse n s) :=
  ⟨h.busy, h.sequence, h.report, h.idle⟩

theorem runFlow_runMicroOp {u : MicroOp} {rest : List MicroOp} {smp : Sample} {s : State} (hk : s.k = u :: rest)
    (h : RunFlow s) : RunFlow (runMicroOp u smp s) := by
  have hrun : RunK (u :: rest) := hk ▸ ⟨h.busy, h.sequence⟩
  have hnext : RunK (runMicroOp u smp s).k := by
    rw [runMicroOp_eq, hk]
    exact runK_nextK smp s.cfg hrun
  exact ⟨hnext.1, hnext.2, reportInv_runMicroOp u smp h.report, idleOrKeyDown_runMicroOp hk hrun.runRest h.idle⟩

/-- Settles O43: `RUN` puts the first of its sequences into `K`, and each µop of a `K` of `RUN` keeps the flow. -/
theorem runKeepsReportIdleOutsidePulses : Obligations.RunKeepsReportIdleOutsidePulses := by
  refine ⟨fun s t hk hr ht => ?_, fun s t h hrst hs => ?_⟩
  · cases (exec_of_idle .run hk).symm.trans ht
    obtain ⟨busy, sequence⟩ := RunSequence.start.runK
    exact ⟨busy, sequence, show ReportInv s.r from hr ▸ reportInv_idle, .inl hr⟩
  · obtain ⟨u, rest, hk⟩ := List.exists_cons_of_ne_nil h.busy
    cases (step_of_head hrst hk).symm.trans hs
    exact runFlow_runMicroOp hk (runFlow_elapse 1 h)

/-- A report with its six unused bytes at 0x00 is the key-down report of its bytes 0 and 2. -/
theorem ReportInv.eq_keyReport {r : Report} (h : ReportInv r) : r = keyReport r.b0 r.b2 := by
  obtain ⟨b0, b1, b2, b3, b4, b5, b6, b7⟩ := r
  obtain ⟨rfl, rfl, rfl, rfl, rfl, rfl⟩ := h
  rfl

/-- A step of `U_TX` (R125). -/
theorem step_of_tx {s : State} {rest : List MicroOp} (hr : s.sample.rst = false) (hk : s.k = .uTx :: rest) :
    step s = .next { elapse 1 s with k := rest, h := s.h ++ [.tx s.r], txValid := true } := by
  rw [step_of_head hr hk, runMicroOp_eq, elapse_k, hk]
  rfl

/-- Settles O44: `U_TX` sends what stands in `R`, which is idle, or the key-down report of a pulse whose rest is `K`. -/
theorem keyDownIsFollowedByIdleReport : Obligations.KeyDownIsFollowedByIdleReport := by
  intro s t rest h hk hr hs
  cases (step_of_tx hr hk).symm.trans hs
  obtain hidle | hpulse := h.idle
  · exact .inl (by rw [hidle])
  · obtain ⟨rest', rfl⟩ : ∃ rest', rest = .uWaitAck :: .uZero :: .uTx :: .uWaitAck :: rest' := by
      simpa [hk, keyDownStands_cons] using hpulse
    exact .inr ⟨s.r.b0, s.r.b2, rest', by rw [← h.report.eq_keyReport], rfl⟩

/-! ## The byte pair (R120, R121) -/

/-- Settles O20: one lemma or one arm of the definition for each clause. -/
theorem formatPair : Obligations.FormatPair := by
  refine ⟨fun c m => ⟨fun h => ?_, fun h hm => ?_, fun h hm => ?_⟩,
    fun c sym m => ⟨formatKey_eq_none.2, fun h => ?_, fun i h hi hs => ?_, fun i h hi hs => ?_⟩⟩
  · simp [modByte, h]
  · simp [modByte, h, hm]
  · simp [modByte, h, hm]
  · simp [formatKey, h]
  · simp [formatKey, h, shiftNeeded_of_symIndex hi, hs, usage_of_ascii h hi]
  · simp [formatKey, h, shiftNeeded_of_symIndex hi, hs, usage_of_ascii h hi]

/-! ## Commands of one µop (R122 to R124) -/

/-- From an open port, a µop that never waits and puts nothing in front of the rest leaves its writes and an empty `K`. -/
theorem runFor_single_writes {s : State} {u : MicroOp} (hr : s.sample.rst = false)
    (hu : nextK u s.sample s.cfg [u] = []) :
    runFor 1 { s with k := [u] } = .next { writes u s.sample { elapse 1 s with k := [u] } with k := [] } := by
  rw [runFor_single u hr, runMicroOp_eq]
  simp [hu]

/-- Settles O21: the one µop of the expansion writes `MOD`. -/
theorem setmodCompletes : Obligations.SetmodCompletes := fun s m hk hr =>
  ⟨exec_of_idle _ hk, by rw [runFor_single_writes hr rfl]; simp [writes, elapse, hk]⟩

/-- Settles O22: the one µop of the expansion writes the pair `Format` gives, or nothing. -/
theorem keydownCompletes : Obligations.KeydownCompletes := fun s sym hk hr =>
  ⟨exec_of_idle _ hk,
    fun hf => by rw [runFor_single_writes hr rfl]; simp [writes, formattedReport, hf, elapse, hk],
    fun b0 b2 hf => by rw [runFor_single_writes hr rfl]; simp [writes, formattedReport, hf, elapse, hk]⟩

/-- Settles O23: the one µop of the expansion writes the idle report. -/
theorem idleCompletes : Obligations.IdleCompletes := fun s hk hr =>
  ⟨exec_of_idle _ hk, by rw [runFor_single_writes hr rfl]; simp [writes, writeIdle, Report.idle, elapse, hk]⟩

/-! ## The exchange and the pulse (R125 to R127) -/

/-- Settles O24: `U_TX` by its step, `U_WAITACK` by the one sample bit it waits for. -/
theorem exchangePrimitive : Obligations.ExchangePrimitive := by
  refine ⟨fun s rest hk hr => step_of_tx hr hk, fun s rest hk hr => ⟨fun ha => ?_, fun ha => ?_⟩⟩
  · rw [step_of_head hr hk, runMicroOp_eq]
    simp [writes, nextK, waits, ha, hk]
  · exact step_of_waits hr hk (by simp [waits, ha])

/-- Settles O25: an exchange with nothing behind it in `K`. -/
theorem xchgCompletes : Obligations.XchgCompletes := by
  intro s d hk hq ha
  refine ⟨exec_of_idle _ hk, ?_⟩
  rw [show 2 + d = 1 + (d + 1) by omega] at hq ⊢
  rw [runFor_exchange (s := { s with k := [.uTx, .uWaitAck] }) d rfl hq ha]
  simp [elapse, hk]

theorem expansion_pulse_of_format {c : Config} {sym m : Byte} {p : Byte × Byte} (h : formatKey c sym m = some p) :
    expansion c (.pulse sym) = pulseOps sym := by
  rw [expansion_pulse]
  refine pulseSeq_of_class fun hn => ?_
  simp [formatKey_eq_none.2 hn] at h

/-- The write of a key-down report, from a report with its unused bytes at 0x00 (R123, R127). -/
theorem step_of_fmt {s : State} {sym b0 b2 : Byte} {rest : List MicroOp} (hr : s.sample.rst = false)
    (hk : s.k = .uFmt sym :: rest) (hinv : ReportInv s.r) (hf : formatKey s.cfg sym s.mod = some (b0, b2)) :
    step s = .next { elapse 1 s with k := rest, r := keyReport b0 b2 } := by
  have hreport : formattedReport s.cfg sym s.mod s.r = keyReport b0 b2 := by
    rw [(reportInv_formattedReport hinv).eq_keyReport]
    simp [formattedReport, hf]
  rw [step_of_head hr hk, runMicroOp_eq]
  simp [writes, nextK, waits, hk, hreport]

/-- Settles O26: the write of the key-down report, then the two exchanges; without a class the sequence is empty. -/
theorem pulseCompletes : Obligations.PulseCompletes := by
  refine ⟨fun s sym b0 b2 d e hk hinv hf hq ha hb => ⟨_, exec_of_idle _ hk, ?_⟩, fun s sym hk hn => ?_⟩
  · rw [show 6 + d + e = 1 + (1 + (d + 1) + (1 + (1 + (e + 1)))) by omega] at hq ⊢
    rw [show 5 + d = 1 + (1 + (d + 1) + (1 + (1 + 0))) by omega] at hb
    have hfmt := step_of_fmt (s := { s with k := pulseOps sym }) 
      (quiet_sample (n := 0) fun m hm => hq m (by omega)) rfl hinv hf
    rw [expansion_pulse_of_format hf, runFor_add _ _ (runFor_one hfmt),
      runFor_reportThenIdle d e rfl (quiet_of_drop rfl rfl hq) (ackAfter_of_drop rfl rfl ha)
        (ackAfter_of_drop rfl rfl hb)]
    simp only [elapse, List.drop_drop, Nat.add_assoc, hk]
    rfl
  · rw [exec_of_idle _ hk, expansion_pulse, pulseSeq_of_none hn, ← hk]

/-! ## What the sweeps forget (R128, R152) -/

/-- Settles O53: `U_SWEEP1` writes over `MOD`, and `U_SWEEP2` carries it along. -/
theorem sweepsForgetEarlierCycles : Obligations.SweepsForgetEarlierCycles := by
  refine ⟨fun s rest m hk => ?_, fun s t rest m hk hr hs => ?_⟩
  · cases hr : s.sample.rst with
    | true => rw [step_of_reset hr, step_of_reset (s := { s with mod := m }) hr]; rfl
    | false => rw [step_of_head hr hk, step_of_head (s := { s with mod := m }) hr hk]; rfl
  · cases (step_of_head hr hk).symm.trans hs
    rw [step_of_head (s := { s with mod := m }) hr hk, runMicroOp_eq, runMicroOp_eq]
    rfl

end Sys2Proof.Machine
end

section
/-! SUPPORT. Proofs of 42_led.md: the LED update (R141), `LEDDEC` and `LEDRX` to their ends (R142, R143), and a whole
`CYCLE` (R158), which ends in the LED update. The runs they are made of stand first. -/

namespace Sys2Proof.Machine

/-! ## Runs between two of the coming steps -/

/-- `s`, with `a` of its samples gone, runs to `t`, with `b` of them gone. The parts of a run so count their samples
from one and the same step, as the statements do. -/
def Reaches (a b : Nat) (s t : State) : Prop :=
  ∃ n, a + n = b ∧ runFor n (elapse a s) = .next (elapse b t)

theorem Reaches.trans {a b c : Nat} {s t u : State} (h : Reaches a b s t) (h' : Reaches b c t u) : Reaches a c s u := by
  obtain ⟨m, rfl, hm⟩ := h
  obtain ⟨n, rfl, hn⟩ := h'
  exact ⟨m + n, by omega, by rw [runFor_add _ _ hm, hn]⟩

/-- No step reads the output pulses of the step before it. -/
theorem step_elapse_zero (s : State) : step (elapse 0 s) = step s := rfl

theorem Reaches.runFor_eq {n : Nat} {s t : State} (h : Reaches 0 n s t) (hn : 0 < n) :
    runFor n s = .next (elapse n t) := by
  obtain ⟨m, hm, hrun⟩ := h
  obtain ⟨n, rfl⟩ := Nat.exists_eq_succ_of_ne_zero hn.ne'
  obtain rfl : m = n + 1 := by omega
  obtain ⟨s', hs⟩ := step_total s
  rw [runFor_succ n ((step_elapse_zero s).trans hs)] at hrun
  rw [runFor_succ n hs, hrun]

theorem sample_elapse (n : Nat) (s : State) : (elapse n s).sample = s.sampleAt n := by
  rw [sample_eq_sampleAt, sampleAt_elapse, Nat.add_zero]

theorem rst_elapse {a N : Nat} {s : State} (hq : quiet N s) (h : a + 1 ≤ N) : (elapse a s).sample.rst = false := by
  rw [sample_elapse]
  exact hq a h

theorem quiet_elapse {a n N : Nat} {s : State} (hq : quiet N s) (h : a + n ≤ N) : quiet n (elapse a s) :=
  quiet_of_drop rfl rfl fun m hm => hq m (by omega)

/-- Only `U_TX` leaves an output pulse; the other µops do the same whether pulses have been cleared or not. -/
theorem runMicroOp_elapse {u : MicroOp} (hu : u ≠ .uTx) (smp : Sample) (n : Nat) (s : State) :
    runMicroOp u smp (elapse n s) = elapse n (runMicroOp u smp s) := by
  rw [runMicroOp_eq, runMicroOp_eq]
  cases u with
  | uTx => exact absurd rfl hu
  | _ => rfl

section
variable {a b N : Nat} {rest : List MicroOp} {s : State}

/-- The step `a` steps from now, of any µop but `U_TX`. -/
theorem reaches_step {u : MicroOp} {t : State} (hk : s.k = u :: rest) (hu : u ≠ .uTx) (hq : quiet N s)
    (ht : { writes u (s.sampleAt a) s with k := nextK u (s.sampleAt a) s.cfg (u :: rest) } = t)
    (hb : b = a + 1 := by omega) (hN : b ≤ N := by omega) : Reaches a b s t := by
  subst hb
  refine ⟨1, rfl, ?_⟩
  rw [runFor_one (step_of_head (rst_elapse hq hN) hk), sample_elapse, elapse_elapse, runMicroOp_elapse hu,
    runMicroOp_eq, hk, ht]

/-- A waiting µop from step `a` on, whose input comes `d` steps late. -/
theorem reaches_wait {u : MicroOp} {d : Nat} (hu : u ∈ [MicroOp.uWaitAck, .uDiagHold, .uWaitRdy, .uWaitCfg])
    (hk : s.k = u :: rest) (hq : quiet N s) (hw : ∀ j < d, waits u (s.sampleAt (a + j)) = true)
    (hp : waits u (s.sampleAt (a + d)) = false) (hb : b = a + d + 1 := by omega) (hN : b ≤ N := by omega) :
    Reaches a b s { s with k := rest } := by
  subst hb
  refine ⟨d + 1, rfl, ?_⟩
  rw [runFor_wait hu d (s := elapse a s) hk (quiet_elapse hq hN) (by simpa using hw) (by simpa using hp), elapse_elapse]
  rfl

/-- The report is sent at step `a`, and acknowledged `d` steps late. -/
theorem reaches_exchange {d m : Nat} (hk : s.k = .uTx :: .uWaitAck :: rest) (hq : quiet N s) (ha : ackAfter m d s)
    (hm : m = a + 1 := by omega) (hb : b = m + d + 1 := by omega) (hN : b ≤ N := by omega) :
    Reaches a b s { s with k := rest, h := s.h ++ [.tx s.r] } := by
  subst hb hm
  refine ⟨1 + (d + 1), by omega, ?_⟩
  rw [runFor_exchange d (s := elapse a s) hk (quiet_elapse hq (by omega)) (ackAfter_of_drop rfl rfl ha), elapse_elapse]
  simp only [elapse, Nat.add_assoc]

/-- A pulse from the step on whose report stands in `R`, its acknowledgments `d` and `e` steps late. -/
theorem reaches_reportThenIdle {d e m m' : Nat} (hk : s.k = .uTx :: .uWaitAck :: .uZero :: .uTx :: .uWaitAck :: rest)
    (hq : quiet N s) (ha : ackAfter m d s) (ha' : ackAfter m' e s) (hm : m = a + 1 := by omega)
    (hm' : m' = m + d + 3 := by omega) (hb : b = m' + e + 1 := by omega) (hN : b ≤ N := by omega) :
    Reaches a b s { s with k := rest, r := Report.idle, h := s.h ++ [.tx s.r, .tx Report.idle] } := by
  subst hb hm' hm
  refine ⟨1 + (d + 1) + (1 + (1 + (e + 1))), by omega, ?_⟩
  rw [show a + 1 + d + 3 = a + (1 + (d + 1) + (1 + (1 + 0))) by omega] at ha' ⊢
  rw [runFor_reportThenIdle d e (s := elapse a s) hk (quiet_elapse hq (by omega)) (ackAfter_of_drop rfl rfl ha)
    (ackAfter_of_drop rfl rfl ha'), elapse_elapse]
  simp only [elapse, Nat.add_assoc, Nat.add_zero]

end

/-! ## The LED update (R141) -/

/-- Settles O29: what `U_LED` and `U_CLR2` write, and how each moves `K`. -/
theorem ledUpdate : Obligations.LedUpdate := by
  refine ⟨fun s b rest hk hr => ⟨ledEvents b, .refl _, ?_⟩, fun s rest hk hr => ?_⟩ <;>
  · rw [step_of_head hr hk, runMicroOp_eq, elapse_k, hk]
    rfl

section
variable {u : MicroOp} {b : Byte} {rest : List MicroOp} {s : State} {a e m d N : Nat}
  (hu : u = .uLed b ∨ u = .uRecv ∧ b = (s.sampleAt a).outReport) (hk : s.k = u :: rest) (hq : quiet N s)
include hu hk hq

/-- The update itself, one step, in `U_LED` and in `U_RECV`. -/
theorem reaches_writeLocks (he : e = a + 1 := by omega) (hN : e ≤ N := by omega) :
    Reaches a e s { writeLocks b s with k := if anyLock b then extraOps ++ rest else rest } := by
  obtain rfl | ⟨rfl, rfl⟩ := hu <;> exact reaches_step hk nofun hq rfl

/-- The LED update without a lock bit. -/
theorem reaches_ledUpdate_of_noLock (hb : b &&& 0x07 = 0x00) (he : e = a + 1 := by omega)
    (hN : e ≤ N := by omega) : Reaches a e s { writeLocks b s with k := rest } := by
  have hlock : anyLock b = false := by simpa [anyLock_eq] using hb
  have update := reaches_writeLocks hu hk hq he hN
  rw [hlock] at update
  exact update

/-- The LED update with a lock bit, and its extra exchange, acknowledged `d` steps late. -/
theorem reaches_ledUpdate_of_lock (hb : b &&& 0x07 ≠ 0x00) (ha : ackAfter m d s)
    (hm : m = a + 3 := by omega) (he : e = m + d + 1 := by omega) (hN : e ≤ N := by omega) :
    Reaches a e s
      { writeLocks b s with
        k := rest, r := { s.r with b2 := 0x00 }, h := s.h ++ ledEvents b ++ [.tx { s.r with b2 := 0x00 }] } := by
  have hlock : anyLock b = true := by simpa [anyLock_eq] using hb
  have update : Reaches a (a + 1) s _ := reaches_writeLocks hu hk hq
  rw [if_pos hlock] at update
  have clear : Reaches (a + 1) (a + 2) { writeLocks b s with k := extraOps ++ rest }
      { writeLocks b s with k := .uTx :: .uWaitAck :: rest, r := { s.r with b2 := 0x00 } } :=
    reaches_step rfl nofun hq rfl
  exact (update.trans clear).trans (reaches_exchange rfl hq ha)

/-- R141: the LED update and all that comes of it. `x` is the number of steps a lock bit adds. -/
theorem reaches_ledUpdate {x : Nat}
    (hsteps : x = if b &&& 0x07 = 0x00 then 0 else 3 + d) (late : b &&& 0x07 ≠ 0x00 → ackAfter m d s)
    (hm : m = a + 3 := by omega) (he : e = a + 1 + x := by omega) (hN : e ≤ N := by omega) :
    Reaches a e s
      { writeLocks b s with
        k := rest
        r := if b &&& 0x07 = 0x00 then s.r else { s.r with b2 := 0x00 }
        h := s.h ++ ledEvents b ++ if b &&& 0x07 = 0x00 then [] else [.tx { s.r with b2 := 0x00 }] } := by
  by_cases hb : b &&& 0x07 = 0x00
  · rw [if_pos hb] at hsteps
    rw [if_pos hb, if_pos hb, List.append_nil]
    exact reaches_ledUpdate_of_noLock hu hk hq hb
  · rw [if_neg hb] at hsteps
    rw [if_neg hb, if_neg hb]
    exact reaches_ledUpdate_of_lock hu hk hq hb (late hb)

end

/-! ## `LEDDEC` and `LEDRX` (R142, R143) -/

/-- Settles O30: the LED update with nothing behind it in `K`. -/
theorem leddecCompletes : Obligations.LeddecCompletes := by
  refine fun s b d hk => ⟨exec_of_idle _ hk, ledEvents b, .refl _, fun hb hq => ?_, fun hb hq ha => ?_⟩
  · have run : Reaches 0 1 { s with k := [.uLed b] } _ := reaches_ledUpdate_of_noLock (.inl rfl) rfl hq hb
    rw [run.runFor_eq (by omega)]
    simp only [elapse, hk]
    rfl
  · have run : Reaches 0 (4 + d) { s with k := [.uLed b] } _ := reaches_ledUpdate_of_lock (.inl rfl) rfl hq hb ha
    rw [run.runFor_eq (by omega)]
    simp only [elapse, hk]
    rfl

theorem lockBits_of_noLock {b : Byte} (hb : b &&& 0x07 = 0x00) :
    numBit b = false ∧ capsBit b = false ∧ scrollBit b = false := by
  have hlock : anyLock b = false := by simpa [anyLock_eq] using hb
  simpa [anyLock, and_assoc] using hlock

/-- Settles O31: `U_RECV` is the LED update of the report in its step's sample. -/
theorem ledrxCompletes : Obligations.LedrxCompletes := by
  refine fun s d hk => ⟨exec_of_idle _ hk, fun hr => ?_, fun b hout hb hq => ?_, fun b hout hb hq ha => ?_⟩
  · rw [step_of_head (s := { s with k := [.uRecv] }) hr rfl,
      step_of_head (s := { s with k := [.uLed s.sample.outReport] }) hr rfl]
    rfl
  · rw [sample_eq_sampleAt] at hout
    have run : Reaches 0 1 { s with k := [.uRecv] } _ := reaches_ledUpdate_of_noLock (.inr ⟨rfl, hout.symm⟩) rfl hq hb
    obtain ⟨hnum, hcaps, hscroll⟩ := lockBits_of_noLock hb
    exact ⟨_, run.runFor_eq (by omega), rfl, rfl, rfl, hnum, hcaps, hscroll, hcaps, hnum, hscroll⟩
  · rw [sample_eq_sampleAt] at hout
    have run : Reaches 0 (4 + d) { s with k := [.uRecv] } _ :=
      reaches_ledUpdate_of_lock (.inr ⟨rfl, hout.symm⟩) rfl hq hb ha
    refine ⟨_, run.runFor_eq (by omega), rfl, rfl, rfl, rfl, rfl, rfl, rfl, rfl, rfl, ?_, ?_⟩
    · simp [txCount, ledEvents]
    · simp [ledCount, ledEvents]

/-! ## The events of a key's pulse (R127, R153) -/

/-- The two reports that the key found by the second sweep sends, with the modifier `m` pending. -/
def keyEvents (c : Config) (m : Byte) (key : Option Byte) : List Event :=
  match key.bind fun sym => formatKey c sym m with
  | none => []
  | some (b0, b2) => [.tx (keyReport b0 b2), .tx Report.idle]

theorem keyEvents_of_format {c : Config} {m sym b0 b2 : Byte} (h : formatKey c sym m = some (b0, b2)) :
    keyEvents c m (some sym) = [.tx (keyReport b0 b2), .tx Report.idle] := by
  simp [keyEvents, h]

/-! ## The parts of a cycle (R152, R153, R155, R157) -/

section
variable {a b N : Nat} {rest : List MicroOp} {s : State}

/-- R155: the button is up at the check. -/
theorem reaches_diag_of_up (hk : s.k = .uDiagChk :: rest) (up : (s.sampleAt a).diagN = true) (hq : quiet N s)
    (hb : b = a + 1 := by omega) (hN : b ≤ N := by omega) : Reaches a b s { s with k := rest } :=
  reaches_step hk nofun hq (by simp [writes, nextK, up])

/-- R155: the button is down at the check, released `h` steps late, and the reports are acknowledged `d` and `e` steps
late. -/
theorem reaches_diag_of_down {h d e p m m' : Nat} (hk : s.k = .uDiagChk :: rest) (hinv : ReportInv s.r)
    (down : (s.sampleAt a).diagN = false) (hq : quiet N s) (hw : ∀ j < h, (s.sampleAt (p + j)).diagN = false)
    (hrelease : (s.sampleAt (p + h)).diagN = true) (hd : ackAfter m d s) (he : ackAfter m' e s)
    (hp : p = a + 1 := by omega) (hm : m = p + h + 3 := by omega) (hm' : m' = m + d + 3 := by omega)
    (hb : b = m' + e + 1 := by omega) (hN : b ≤ N := by omega) :
    Reaches a b s
      { s with k := rest, r := Report.idle, h := s.h ++ [.tx (keyReport s.r.b0 0x04), .tx Report.idle] } := by
  have check : Reaches a p s { s with k := diagOps ++ rest } :=
    reaches_step hk nofun hq (by simp [writes, nextK, down])
  have hold : Reaches p (p + h + 1) { s with k := diagOps ++ rest } { s with k := diagOps.tail ++ rest } :=
    reaches_wait (u := .uDiagHold) (by simp) rfl hq (fun j hj => congrArg not (hw j hj)) (congrArg not hrelease)
  have hreport : { s.r with b2 := 0x04 } = keyReport s.r.b0 0x04 :=
    ReportInv.eq_keyReport (r := { s.r with b2 := 0x04 }) hinv
  have literal : Reaches (p + h + 1) (p + h + 2) { s with k := diagOps.tail ++ rest }
      { s with k := .uTx :: .uWaitAck :: .uZero :: .uTx :: .uWaitAck :: rest, r := keyReport s.r.b0 0x04 } :=
    reaches_step rfl nofun hq (by rw [← hreport]; rfl)
  exact ((check.trans hold).trans literal).trans (reaches_reportThenIdle rfl hq hd he)

/-- R152: the first sweep. -/
theorem reaches_sweep1 (hk : s.k = .uSweep1 :: rest) (hq : quiet N s) (hb : b = a + 1 := by omega)
    (hN : b ≤ N := by omega) :
    Reaches a b s { s with k := rest, mod := sweepModifier s.cfg (s.sampleAt a).keyN } :=
  reaches_step hk nofun hq rfl

/-- R153: no key is down in the second sweep. -/
theorem reaches_sweep2_of_none (hk : s.k = .uSweep2 :: rest) (noKey : sweepKey s.cfg (s.sampleAt a).keyN = none)
    (hq : quiet N s) (hb : b = a + 1 := by omega) (hN : b ≤ N := by omega) : Reaches a b s { s with k := rest } :=
  reaches_step hk nofun hq (by simp [writes, nextK, noKey])

/-- The key that the second sweep finds has a byte pair (R7, R121, R153). -/
theorem exists_formatKey_of_sweepKey {c : Config} {keyN : Grid Bool} {sym : Byte} (hwf : c.wf = true)
    (h : sweepKey c keyN = some sym) (m : Byte) : ∃ b0 b2, formatKey c sym m = some (b0, b2) := by
  obtain ⟨p, rfl, hkey, -⟩ := sweepKey_some h
  have hclass := classify_of_isKey hwf hkey
  obtain ⟨⟨b0, b2⟩, hf⟩ := Option.ne_none_iff_exists'.1 (mt formatKey_eq_none.1 hclass)
  exact ⟨b0, b2, hf⟩

/-- R123: the key-down report is written. -/
theorem reaches_fmt {sym b0 b2 : Byte} (hk : s.k = .uFmt sym :: rest) (hinv : ReportInv s.r)
    (hf : formatKey s.cfg sym s.mod = some (b0, b2)) (hq : quiet N s) (hb : b = a + 1 := by omega)
    (hN : b ≤ N := by omega) : Reaches a b s { s with k := rest, r := keyReport b0 b2 } := by
  subst hb
  refine ⟨1, rfl, ?_⟩
  rw [runFor_one (step_of_fmt (rst_elapse hq hN) hk hinv hf), elapse_elapse]
  rfl

/-- R153: the second sweep finds a key, and the two reports of its pulse are acknowledged `d` and `e` steps late. -/
theorem reaches_sweep2_of_some {d e m m' : Nat} {sym b0 b2 : Byte} (hk : s.k = .uSweep2 :: rest) (hinv : ReportInv s.r)
    (found : sweepKey s.cfg (s.sampleAt a).keyN = some sym) (hf : formatKey s.cfg sym s.mod = some (b0, b2))
    (hq : quiet N s) (hd : ackAfter m d s) (he : ackAfter m' e s) (hm : m = a + 3 := by omega)
    (hm' : m' = m + d + 3 := by omega) (hb : b = m' + e + 1 := by omega) (hN : b ≤ N := by omega) :
    Reaches a b s
      { s with k := rest, r := Report.idle, h := s.h ++ [.tx (keyReport b0 b2), .tx Report.idle] } := by
  have hpulse : pulseSeq s.cfg sym = pulseOps sym := by rw [← expansion_pulse, expansion_pulse_of_format hf]
  have sweep : Reaches a (a + 1) s { s with k := pulseOps sym ++ rest } :=
    reaches_step hk nofun hq (by simp [writes, nextK, found, hpulse])
  have format : Reaches (a + 1) (a + 2) { s with k := pulseOps sym ++ rest }
      { s with k := .uTx :: .uWaitAck :: .uZero :: .uTx :: .uWaitAck :: rest, r := keyReport b0 b2 } :=
    reaches_fmt rfl hinv hf hq
  exact (sweep.trans format).trans (reaches_reportThenIdle rfl hq hd he)

/-- R155: the check of the button and all that comes of it. `o` is the number of steps the button adds. -/
theorem reaches_diag {o h d e p m m' : Nat} (hk : s.k = .uDiagChk :: rest) (hinv : ReportInv s.r) (hq : quiet N s)
    (hsteps : o = if (s.sampleAt a).diagN then 0 else 7 + h + d + e)
    (late : (s.sampleAt a).diagN = false → (∀ j < h, (s.sampleAt (p + j)).diagN = false) ∧
      (s.sampleAt (p + h)).diagN = true ∧ ackAfter m d s ∧ ackAfter m' e s)
    (hp : p = a + 1 := by omega) (hm : m = p + h + 3 := by omega) (hm' : m' = m + d + 3 := by omega)
    (hb : b = a + 1 + o := by omega) (hN : b ≤ N := by omega) :
    Reaches a b s
      { s with
        k := rest
        r := if (s.sampleAt a).diagN then s.r else Report.idle
        h := s.h ++ if (s.sampleAt a).diagN then [] else [.tx (keyReport s.r.b0 0x04), .tx Report.idle] } := by
  cases hdown : (s.sampleAt a).diagN with
  | true =>
    obtain rfl : o = 0 := by rw [hsteps, if_pos hdown]
    simpa using reaches_diag_of_up hk hdown hq hb
  | false =>
    obtain rfl : o = 7 + h + d + e := by rw [hsteps, hdown]; rfl
    obtain ⟨hw, hrelease, hd, he⟩ := late hdown
    exact reaches_diag_of_down hk hinv hdown hq hw hrelease hd he

/-- R153: the second sweep and all that comes of it. `q` is the number of steps a key adds. -/
theorem reaches_sweep2 {q d e m m' : Nat} {key : Option Byte} (hk : s.k = .uSweep2 :: rest) (hinv : ReportInv s.r)
    (hwf : s.cfg.wf = true) (hkey : key = sweepKey s.cfg (s.sampleAt a).keyN) (hq : quiet N s)
    (hsteps : q = if key = none then 0 else 6 + d + e) (late : key ≠ none → ackAfter m d s ∧ ackAfter m' e s)
    (hm : m = a + 3 := by omega) (hm' : m' = m + d + 3 := by omega) (hb : b = a + 1 + q := by omega)
    (hN : b ≤ N := by omega) :
    Reaches a b s
      { s with
        k := rest
        r := if key = none then s.r else Report.idle
        h := s.h ++ keyEvents s.cfg s.mod key } := by
  cases key with
  | none =>
    obtain rfl : q = 0 := hsteps
    simpa [keyEvents] using reaches_sweep2_of_none hk hkey.symm hq hb
  | some sym =>
    obtain rfl : q = 6 + d + e := hsteps
    obtain ⟨hd, he⟩ := late nofun
    obtain ⟨b0, b2, hf⟩ := exists_formatKey_of_sweepKey hwf hkey.symm s.mod
    rw [keyEvents_of_format hf]
    exact reaches_sweep2_of_some hk hinv hkey.symm hf hq hd he

end

/-! ## `CYCLE` (R158) -/

/-- Settles O39: the readiness wait, the diagnostic check, the two sweeps and the LED update, each with the steps it
adds. -/
theorem cycleCompletes : Obligations.CycleCompletes := by
  intro s w h d₁ e₁ d₂ e₂ d₃ m b key hk hinv hwf up o q x hq hbusy hready hdiag hm hkey hpulse hb hextra
  have hdiagSteps : o = if up then 0 else 7 + h + d₁ + e₁ := rfl
  have hkeySteps : q = if key = none then 0 else 6 + d₂ + e₂ := rfl
  have hledSteps : x = if b &&& 0x07 = 0x00 then 0 else 3 + d₃ := rfl
  clear_value o q x
  have ready : Reaches 0 (w + 1) { s with k := cycleOps } { s with k := cycleOps.tail } :=
    reaches_wait (u := .uWaitRdy) (d := w) (by simp) rfl hq
      (fun j hj => by rw [Nat.zero_add]; exact congrArg not (hbusy j hj))
      (by rw [Nat.zero_add]; exact congrArg not hready)
  have diag : Reaches 0 (2 + w + o) _ _ := ready.trans (reaches_diag rfl hinv hq hdiagSteps hdiag)
  have sweep1 : Reaches 0 (3 + w + o) _ _ := diag.trans (reaches_sweep1 rfl hq)
  have hinv' : ReportInv (if up then s.r else Report.idle) := by
    split
    · exact hinv
    · exact reportInv_idle
  have sweep2 : Reaches 0 (4 + w + o + q) _ _ := sweep1.trans (reaches_sweep2 rfl hinv' hwf hkey hq hkeySteps hpulse)
  have leds : Reaches 0 (5 + w + o + q + x) _ _ :=
    sweep2.trans (reaches_ledUpdate (.inr ⟨rfl, hb⟩) rfl hq hledSteps hextra)
  refine ⟨exec_of_idle _ hk, ledEvents b, keyEvents s.cfg m key, .refl _, ?_, ?_, ?_⟩
  · rintro rfl
    rfl
  · rintro sym rfl
    obtain ⟨b0, b2, hf⟩ := exists_formatKey_of_sweepKey hwf hkey.symm m
    exact ⟨b0, b2, hf, keyEvents_of_format hf⟩
  · refine (leds.runFor_eq (by omega)).trans ?_
    have hsent : (if key = none then if up then s.r else Report.idle else Report.idle) =
        if up = true ∧ key = none then s.r else Report.idle := by
      cases up <;> simp
    simp only [elapse, hk, hm, ← hsent]
    rfl

end Sys2Proof.Machine
end

section
/-! SUPPORT. Proofs of 43_sequencer.md, the steps: the command port and the head of `K` (R150, R151, R215), the moves of
`K` (R161), the readiness waits and the diagnostic µops (R155, R157), and the longest `K` (R160). -/

namespace Sys2Proof.Machine

/-! ## The command port (R151, R215) -/

/-- Settles O8: every command is an acceptance, and a busy port accepts nothing. -/
theorem busyBlockIgnoresCommands : Obligations.BusyBlockIgnoresCommands := fun s i hk => by
  rw [exec_eq_accept, accept_of_busy _ hk]

theorem step_eq_exec {s : State} {i : Instr} (hr : s.sample.rst = false) (hk : s.k = [])
    (hv : s.sample.cmdValid = true) (hd : decode s.sample.cmd = .ok i) : step s = exec i (beginStep s) := by
  rw [step_of_idle hr hk, commandPort, if_pos hv, hd]

/-- A command word has no bit above the sixteen of the host's view. -/
theorem ofNat_tableBits (w : CmdWord) : BitVec.ofNat 12 (tableBits 16 w.toNat) = w := by
  have := w.isLt
  apply BitVec.eq_of_toNat_eq
  rw [BitVec.toNat_ofNat, tableBits]
  omega

/-- Settles O5: at an open port a step is `exec` of the decoded command, and `withFetchWord` opens the port and presents
a word that decodes to the command it encodes. -/
theorem stepRunsDecodedCommand : Obligations.StepRunsDecodedCommand := by
  refine ⟨fun s i hk hr hv hd => step_eq_exec hr hk hv hd, fun s i => ?_⟩
  have hd : decode (BitVec.ofNat 12 (tableBits 16 (encode i).toNat)) = .ok i := by
    rw [ofNat_tableBits, decode_encode]
  exact step_eq_exec (s := s.withFetchWord 16 (encode i).toNat) rfl rfl rfl hd

/-- Settles O6: the start of a step moves the sample on and lowers the pulses. -/
theorem stepRunsHeadOfK : Obligations.StepRunsHeadOfK := fun s u rest hk hr => by
  rw [step_of_head hr hk, ← beginStep_eq_elapse]
  rfl

/-- No µop reads the command port. -/
theorem runMicroOp_ignoresPort (u : MicroOp) (smp : Sample) (valid : Bool) (w : CmdWord) (s : State) :
    runMicroOp u { smp with cmdValid := valid, cmd := w } s = runMicroOp u smp s := by
  cases u <;> rfl

/-- Two busy states that differ in the command port of this step's sample alone step to the same state. -/
theorem step_ignoresPort {s t : State} {valid : Bool} {w : CmdWord} (hk : t.k ≠ []) (hst : elapse 1 s = elapse 1 t)
    (hport : s.sample = { t.sample with cmdValid := valid, cmd := w }) : step s = step t := by
  obtain ⟨u, rest, hk⟩ := List.exists_cons_of_ne_nil hk
  have hk' : s.k = u :: rest := (congrArg State.k hst).trans hk
  cases hr : t.sample.rst with
  | true => rw [step_of_reset hr, step_of_reset (by rw [hport]; exact hr), hst]
  | false => rw [step_of_head hr hk, step_of_head (by rw [hport]; exact hr) hk', hst, hport, runMicroOp_ignoresPort]

/-- Settles O7: a command, no command and a reserved word at an open port, and a busy port. -/
theorem commandAcceptance : Obligations.CommandAcceptance :=
  ⟨fun _ i hk => exec_of_idle i hk,
    fun _ _ hk hr hv hd => step_of_command hr hk hv hd,
    fun _ hk hr hv => step_of_noCommand hr hk hv,
    fun _ _ hk hr hv hd => ⟨_, step_of_reserved hr hk hv hd, rfl⟩,
    fun _ _ _ _ _ hk => step_ignoresPort hk rfl rfl⟩

/-! ## The moves of `K` (R161) -/

/-- Only the four waiting µops wait. -/
theorem mem_of_waits {u : MicroOp} {smp : Sample} (h : waits u smp = true) :
    u ∈ [MicroOp.uWaitCfg, .uWaitRdy, .uWaitAck, .uDiagHold] := by
  cases u with
  | uWaitCfg | uWaitRdy | uWaitAck | uDiagHold => simp
  | _ => exact absurd h nofun

/-- Settles O49: the command port, and the ways a µop leaves `K`. -/
theorem continuationChangesInFourWays : Obligations.ContinuationChangesInFourWays := by
  intro s t hr hs
  obtain ⟨hrst, -⟩ | ⟨-, hk, -, h⟩ | ⟨i, -, hk, hv, hd, h⟩ | ⟨e, -, hk, -, -, h⟩ | ⟨u, rest, -, hk, h⟩ := step_cases s
  · exact absurd hrst (by simp [hr])
  all_goals cases h.symm.trans hs
  · exact .inl ⟨hk, .inl hk⟩
  · exact .inl ⟨hk, .inr ⟨i, hv, hd, rfl⟩⟩
  · exact .inl ⟨hk, .inl hk⟩
  · have moves := runMicroOp_k u s.sample (elapse 1 s)
    rw [elapse_k, hk, List.tail_cons] at moves
    obtain ⟨hw, h⟩ | h | ⟨hu, hd, h⟩ | ⟨sym, hu, hkey, h⟩ | ⟨b, hu, hb, h⟩ | ⟨hu, h⟩ := moves
    · exact .inr (.inr (.inr ⟨u, rest, hk, mem_of_waits hw, h⟩))
    · exact .inr (.inl ⟨u, rest, hk, h⟩)
    · exact .inr (.inr (.inl ⟨u, rest, hk, .inl ⟨hu, hd, h⟩⟩))
    · exact .inr (.inr (.inl ⟨u, rest, hk, .inr (.inl ⟨sym, hu, hkey, h⟩)⟩))
    · exact .inr (.inr (.inl ⟨u, rest, hk, .inr (.inr (.inl ⟨b, hu, by simpa [anyLock_eq] using hb, h⟩))⟩))
    · exact .inr (.inr (.inl ⟨u, rest, hk, .inr (.inr (.inr ⟨hu, h⟩))⟩))

/-! ## The steps of the waits and of the diagnostic µops (R155, R157, R160) -/

/-- A step that executes the head of `K`, as its writes and its move of `K`. -/
theorem step_of_head_writes {s : State} {u : MicroOp} {rest : List MicroOp} (hr : s.sample.rst = false)
    (hk : s.k = u :: rest) :
    step s = .next { writes u s.sample (elapse 1 s) with k := nextK u s.sample s.cfg (u :: rest) } := by
  rw [step_of_head hr hk, runMicroOp_eq, elapse_k, hk]
  rfl

/-- A step whose waiting µop has its input. -/
theorem step_of_waitOver {s : State} {u : MicroOp} {rest : List MicroOp} (hr : s.sample.rst = false)
    (hk : s.k = u :: rest) (hu : u ∈ [MicroOp.uWaitAck, .uDiagHold, .uWaitRdy, .uWaitCfg])
    (hw : waits u s.sample = false) : step s = .next { elapse 1 s with k := rest } := by
  rw [step_of_head_writes hr hk]
  simp only [List.mem_cons, List.not_mem_nil, or_false] at hu
  obtain rfl | rfl | rfl | rfl := hu <;> simp [nextK, hw, writes]

/-- Settles O38: either wait ends at the one sample bit it waits for. -/
theorem readinessWaits : Obligations.ReadinessWaits := by
  refine ⟨fun s rest hk hr => ⟨fun h => ?_, fun h => ?_⟩, fun s rest hk hr => ⟨fun h => ?_, fun h => ?_⟩⟩
  · exact step_of_waitOver hr hk (by simp) (by simp [waits, h])
  · exact step_of_waits hr hk (by simp [waits, h])
  · exact step_of_waitOver hr hk (by simp) (by simp [waits, h])
  · exact step_of_waits hr hk (by simp [waits, h])

/-- The check that finds the button down (R155). -/
theorem step_of_diagChk_down {s : State} {rest : List MicroOp} (hr : s.sample.rst = false)
    (hk : s.k = .uDiagChk :: rest) (down : s.sample.diagN = false) : step s = .next { elapse 1 s with k := diagOps ++ rest } := by
  rw [step_of_head_writes hr hk]
  simp [nextK, writes, down]

/-- The check that finds the button up (R155). -/
theorem step_of_diagChk_up {s : State} {rest : List MicroOp} (hr : s.sample.rst = false)
    (hk : s.k = .uDiagChk :: rest) (up : s.sample.diagN = true) : step s = .next { elapse 1 s with k := rest } := by
  rw [step_of_head_writes hr hk]
  simp [nextK, writes, up]

/-- Settles O36: the check, the hold and the literal. -/
theorem diagnosticMicroOps : Obligations.DiagnosticMicroOps := by
  refine ⟨fun s rest hk hr => ⟨fun h => ?_, fun h => ?_⟩, fun s rest hk hr => ⟨fun h => ?_, fun h => ?_⟩,
    fun s u rest hk hr => ?_⟩
  · exact step_of_diagChk_down hr hk h
  · exact step_of_diagChk_up hr hk h
  · exact step_of_waitOver hr hk (by simp) (by simp [waits, h])
  · exact step_of_waits hr hk (by simp [waits, h])
  · exact step_of_head_writes hr hk

/-- Settles O48: the diagnostic pulse in front of the rest of a cycle under `RUN`. -/
theorem longestContinuation : Obligations.LongestContinuation := fun _ hk hr down =>
  ⟨step_of_diagChk_down hr hk down, rfl⟩

end Sys2Proof.Machine
end

section
/-! SUPPORT. Proofs of 43_sequencer.md, the sweeps and the runs: what each sweep finds (R152, R153), the waits (R185),
and `SCAN`, `DIAG` and `RUN` (R154, R156, R159, R215). -/

namespace Sys2Proof.Machine

/-! ## The first sweep (R152) -/

/-- One position of the loop of R152, with the modifier `m` recorded so far. -/
def noteModifier (c : Config) (keyN : Grid Bool) (m : Byte) (p : Pos) : Byte :=
  if isModifier c (layoutRead c p) && pressed keyN p then keepModifier c m (layoutRead c p) else m

theorem sweepModifier_eq_foldl (c : Config) (keyN : Grid Bool) :
    sweepModifier c keyN = positions.foldl (noteModifier c keyN) kNone := rfl

/-- A pressed modifier position, as the statement words it. -/
abbrev ModifierDown (c : Config) (keyN : Grid Bool) (p : Pos) : Prop :=
  layoutRead c p ∈ [c.kShift, c.kCtrl, c.kAlt] ∧ gridGet keyN p = false

section
variable {c : Config} {keyN : Grid Bool}

theorem modifierDown_iff (p : Pos) :
    (isModifier c (layoutRead c p) && pressed keyN p) = true ↔ ModifierDown c keyN p := by
  rw [Bool.and_eq_true, isModifier_iff, pressed, Bool.not_eq_true']

theorem noteModifier_of_down {p : Pos} (m : Byte) (h : ModifierDown c keyN p) :
    noteModifier c keyN m p = keepModifier c m (layoutRead c p) :=
  if_pos ((modifierDown_iff p).2 h)

theorem noteModifier_of_not_down {p : Pos} (m : Byte) (h : ¬ModifierDown c keyN p) : noteModifier c keyN m p = m :=
  if_neg (mt (modifierDown_iff p).1 h)

/-- A stretch of positions at which the loop leaves the recorded modifier as it is. -/
theorem foldl_noteModifier_eq_self {m : Byte} {l : List Pos} (h : ∀ p ∈ l, noteModifier c keyN m p = m) :
    l.foldl (noteModifier c keyN) m = m := by
  induction l with
  | nil => rfl
  | cons p l ih =>
    rw [List.foldl_cons, h p List.mem_cons_self]
    exact ih fun q hq => h q (List.mem_cons_of_mem p hq)

/-- No modifier is down: the sweep records "none". -/
theorem sweepModifier_of_none (h : ∀ p, ¬ModifierDown c keyN p) : sweepModifier c keyN = 0x00 :=
  foldl_noteModifier_eq_self fun p _ => noteModifier_of_not_down _ (h p)

/-- `MOD_SELECT = LAST`: no modifier is down behind `p`. -/
theorem sweepModifier_of_last {p : Pos} (hsel : c.modSelect = .last) (hp : ModifierDown c keyN p)
    (h : ∀ q, linearIndex p < linearIndex q → ¬ModifierDown c keyN q) : sweepModifier c keyN = layoutRead c p := by
  obtain ⟨l, r, hsplit, -, hr⟩ := positions_split p
  rw [sweepModifier_eq_foldl, hsplit, List.foldl_append, List.foldl_cons, noteModifier_of_down _ hp, keepModifier, hsel]
  exact foldl_noteModifier_eq_self fun q hq => noteModifier_of_not_down _ (h q (hr q hq))

theorem ne_kNone_of_modifier (hwf : c.wf = true) {v : Byte} (hv : v ∈ [c.kShift, c.kCtrl, c.kAlt]) : v ≠ kNone := by
  obtain ⟨hnodup, -⟩ := (wf_iff_admissible c).1 hwf
  rintro rfl
  exact (List.nodup_cons.1 hnodup).1 hv

/-- `MOD_SELECT = FIRST`: no modifier is down before `p`, and what is recorded at `p` is kept. -/
theorem sweepModifier_of_first {p : Pos} (hwf : c.wf = true) (hsel : c.modSelect = .first) (hp : ModifierDown c keyN p)
    (h : ∀ q, linearIndex q < linearIndex p → ¬ModifierDown c keyN q) : sweepModifier c keyN = layoutRead c p := by
  have kept : ∀ q, noteModifier c keyN (layoutRead c p) q = layoutRead c p := fun q => by
    by_cases hq : ModifierDown c keyN q
    · rw [noteModifier_of_down _ hq, keepModifier, hsel]
      exact if_neg (ne_kNone_of_modifier hwf hp.1)
    · exact noteModifier_of_not_down _ hq
  obtain ⟨l, r, hsplit, hl, -⟩ := positions_split p
  rw [sweepModifier_eq_foldl, hsplit, List.foldl_append,
    foldl_noteModifier_eq_self fun q hq => noteModifier_of_not_down _ (h q (hl q hq)), List.foldl_cons,
    noteModifier_of_down _ hp, keepModifier, hsel]
  exact foldl_noteModifier_eq_self fun q _ => kept q

end

/-- Settles O32: the sweep is the loop of R152, cut in two at the position it takes. -/
theorem sweepOneRecordsModifier : Obligations.SweepOneRecordsModifier := fun _ _ hk hr hwf =>
  ⟨_, step_of_head_writes hr hk, sweepModifier_of_none, fun _ => sweepModifier_of_last,
    fun _ => sweepModifier_of_first hwf⟩

/-! ## The second sweep (R153) -/

/-- A pressed bound position that holds no modifier, as the statement words it. -/
abbrev KeyDown (c : Config) (keyN : Grid Bool) (p : Pos) : Prop :=
  layoutRead c p ∉ [0x00, c.kShift, c.kCtrl, c.kAlt] ∧ gridGet keyN p = false

section
variable {c : Config} {keyN : Grid Bool}

theorem keyDown_iff (p : Pos) : (isKey c (layoutRead c p) && pressed keyN p) = true ↔ KeyDown c keyN p := by
  rw [Bool.and_eq_true, isKey_iff, pressed, Bool.not_eq_true']

theorem sweepKey_of_none (h : ∀ p, ¬KeyDown c keyN p) : sweepKey c keyN = none := by
  simp only [sweepKey, Option.map_eq_none_iff, List.find?_eq_none, keyDown_iff]
  exact fun p _ => h p

theorem sweepKey_of_first {p : Pos} (hp : KeyDown c keyN p)
    (h : ∀ q, linearIndex q < linearIndex p → ¬KeyDown c keyN q) : sweepKey c keyN = some (layoutRead c p) := by
  obtain ⟨l, r, hsplit, hl, -⟩ := positions_split p
  have before : l.find? (fun q => isKey c (layoutRead c q) && pressed keyN q) = none := by
    simp only [List.find?_eq_none, keyDown_iff]
    exact fun q hq => h q (hl q hq)
  simp only [sweepKey, hsplit, List.find?_append, before, List.find?_cons, (keyDown_iff p).2 hp]
  rfl

end

/-- Settles O33: the search of the positions in row-major order, cut in two at the position it stops at. -/
theorem sweepTwoReportsFirstKey : Obligations.SweepTwoReportsFirstKey := by
  intro s rest hk hr hwf down
  refine ⟨fun h => ?_, fun p hp h => ?_⟩
  · rw [step_of_head_writes hr hk]
    simp [nextK, writes, sweepKey_of_none h]
  · have hclass := classify_of_isKey hwf ((isKey_iff _ _).2 hp.1)
    rw [step_of_head_writes hr hk]
    simp [nextK, writes, sweepKey_of_first hp h, pulseSeq_of_class hclass, pulseOps]

/-! ## The waits (R185) -/

/-- A µop that waits at each of `d` steps leaves the block as it is. -/
theorem reaches_hold {u : MicroOp} {rest : List MicroOp} {s : State} {a N : Nat} (hk : s.k = u :: rest) (hq : quiet N s)
    (d : Nat) : (∀ j < d, waits u (s.sampleAt (a + j)) = true) → a + d ≤ N → Reaches a (a + d) s s := by
  induction d with
  | zero => exact fun _ _ => ⟨0, rfl, rfl⟩
  | succ d ih =>
    intro hw hN
    have last : Reaches (a + d) (a + (d + 1)) s s := by
      refine ⟨1, rfl, ?_⟩
      have hwait : waits u (elapse (a + d) s).sample = true := by
        rw [sample_elapse]
        exact hw d (by omega)
      rw [runFor_one (step_of_waits (rst_elapse hq (by omega)) hk hwait), elapse_elapse]
      rfl
    exact (ih (fun j hj => hw j (by omega)) (by omega)).trans last

/-- Settles O28: whichever of the four µops it is, it waits at every step. -/
theorem waitsHaveNoTimeout : Obligations.WaitsHaveNoTimeout := by
  intro s u rest n hk hq hw
  have hold : Reaches 0 (0 + (n + 1)) s s := by
    refine reaches_hold hk hq (n + 1) (fun j hj => ?_) (by omega)
    rw [Nat.zero_add]
    obtain ⟨rfl, h⟩ | ⟨rfl, h⟩ | ⟨rfl, h⟩ | ⟨rfl, h⟩ := hw j hj <;> simp [waits, h]
  rw [Nat.zero_add] at hold
  exact hold.runFor_eq (by omega)

/-! ## `SCAN`, `DIAG` and the start of `RUN` (R154, R156, R159) -/

/-- Settles O35: the first sweep, then the second one and the pulse of its key, if it finds one. -/
theorem scanCompletes : Obligations.ScanCompletes := by
  refine fun s d e hk hinv hwf => ⟨exec_of_idle _ hk, fun noKey hq => ?_, fun sym found hq hd he => ?_⟩
  · have sweep1 : Reaches 0 1 { s with k := [.uSweep1, .uSweep2] } _ := reaches_sweep1 rfl hq
    have run : Reaches 0 2 _ _ := sweep1.trans (reaches_sweep2_of_none rfl noKey hq)
    rw [run.runFor_eq (by omega)]
    simp only [elapse, hk]
    rfl
  · obtain ⟨b0, b2, hf⟩ := exists_formatKey_of_sweepKey hwf found (sweepModifier s.cfg (s.sampleAt 0).keyN)
    have sweep1 : Reaches 0 1 { s with k := [.uSweep1, .uSweep2] } _ := reaches_sweep1 rfl hq
    have run : Reaches 0 (8 + d + e) _ _ := sweep1.trans (reaches_sweep2_of_some rfl hinv found hf hq hd he)
    refine ⟨b0, b2, hf, ?_⟩
    rw [run.runFor_eq (by omega)]
    simp only [elapse, hk]
    rfl

/-- R155: the button is down at the check. -/
theorem reaches_diagChk_of_down {rest : List MicroOp} {s : State} {a b N : Nat} (hk : s.k = .uDiagChk :: rest)
    (down : (s.sampleAt a).diagN = false) (hq : quiet N s) (hb : b = a + 1 := by omega) (hN : b ≤ N := by omega) :
    Reaches a b s { s with k := diagOps ++ rest } :=
  reaches_step hk nofun hq (by simp [writes, nextK, down])

/-- Settles O37: the check with the button up, with the button down and released, and with the button held down. -/
theorem diagCompletes : Obligations.DiagCompletes := by
  intro s w d e hk hinv
  refine ⟨exec_of_idle _ hk, fun up hq => ?_, fun down hq hw hrelease hd he => ?_, fun n down hq hw => ?_⟩
  · rw [sample_eq_sampleAt] at up
    have run : Reaches 0 1 { s with k := [.uDiagChk] } _ := reaches_diag_of_up rfl up hq
    rw [run.runFor_eq (by omega)]
    simp only [elapse, hk]
  · rw [sample_eq_sampleAt] at down
    have run : Reaches 0 (8 + w + d + e) { s with k := [.uDiagChk] } _ :=
      reaches_diag_of_down rfl hinv down hq hw hrelease hd he
    rw [run.runFor_eq (by omega)]
    simp only [elapse, hk]
    rfl
  · rw [sample_eq_sampleAt] at down
    have check : Reaches 0 1 { s with k := [.uDiagChk] } { s with k := diagOps } := reaches_diagChk_of_down rfl down hq
    have stuck : Reaches 1 (1 + n) { s with k := diagOps } { s with k := diagOps } :=
      reaches_hold (u := .uDiagHold) (s := { s with k := diagOps }) rfl hq n (fun j hj => congrArg not (hw j hj))
        (by omega)
    exact (check.trans stuck).runFor_eq (by omega)

/-- Settles O41: `RUN` is a wait for the configuration and `U_LOOP`. -/
theorem runStartsCycles : Obligations.RunStartsCycles := by
  refine ⟨fun s hk => exec_of_idle _ hk, fun s d hk hq hlate hcfg => ?_, fun s hk hr => step_of_head_writes hr hk⟩
  have wait : Reaches 0 (d + 1) s { s with k := [.uLoop] } :=
    reaches_wait (u := .uWaitCfg) (d := d) (by simp) hk hq
      (fun j hj => by rw [Nat.zero_add]; exact congrArg not (hlate j hj))
      (by rw [Nat.zero_add]; exact congrArg not hcfg)
  have loop : Reaches (d + 1) (2 + d) { s with k := [.uLoop] } { s with k := cycleOps ++ [.uLoop] } :=
    reaches_step rfl nofun hq rfl
  exact (wait.trans loop).runFor_eq (by omega)

/-! ## `RUN` without end (R159, R215) -/

/-- What holds at the start and is kept by every step without reset holds after a run without reset. -/
theorem runFor_keeps {P : State → Prop} (hstep : ∀ s t, P s → s.sample.rst = false → step s = .next t → P t) (n : Nat) :
    ∀ {s : State}, P s → quiet n s → ∃ t, runFor n s = .next t ∧ P t := by
  induction n with
  | zero => exact fun h _ => ⟨_, runFor_zero _, h⟩
  | succ n ih =>
    intro s h hq
    obtain ⟨s', hs⟩ := step_total s
    obtain ⟨-, hinputs, htick⟩ := step_keepsEnvironment hs
    rw [runFor_succ n hs]
    exact ih (hstep s s' h (quiet_sample hq) hs) (quiet_of_drop hinputs htick fun m hm => hq m (by omega))

/-- R159, R161: a step without reset keeps `K` a continuation of `RUN`. -/
theorem runK_step {s t : State} (h : RunK s.k) (hr : s.sample.rst = false) (hs : step s = .next t) : RunK t.k := by
  obtain ⟨u, rest, hk⟩ := List.exists_cons_of_ne_nil h.1
  cases (step_of_head_writes hr hk).symm.trans hs
  exact runK_nextK s.sample s.cfg (hk ▸ h)

/-- Settles O42: `RUN` puts the first of its sequences into `K`, and every step keeps a continuation of `RUN`, which is
never empty. -/
theorem runNeverCompletes : Obligations.RunNeverCompletes := by
  intro s n hk hq
  obtain ⟨t, ht, hrun⟩ := runFor_keeps (P := fun s => RunK s.k) (fun _ _ => runK_step) n
    (s := { s with k := expansion s.cfg .run }) RunSequence.start.runK hq
  exact ⟨_, t, exec_of_idle .run hk, ht, hrun.1, List.isEmpty_eq_false_iff.2 hrun.1⟩

end Sys2Proof.Machine
end

section
/-! SUPPORT. Proofs of 43_sequencer.md, the cycle: what a `CYCLE` sends, whatever its samples are (R153, R155, R158). -/

namespace Sys2Proof.Machine

/-! ## The tally of a run -/

/-- What a cycle is counted by: the reports sent and those that `K` still holds a `U_TX` for, the `Led` requests, and
the lock flags. -/
structure Tally where
  reports : Nat
  leds : Nat
  num : Bool
  caps : Bool
  scroll : Bool

/-- The tally of a state. A `U_TX` at the head of `K` does not change it: the report it sends was counted as due. -/
def tally (s : State) : Tally where
  reports := txCount s.h + s.k.count .uTx
  leds := ledCount s.h
  num := s.num
  caps := s.caps
  scroll := s.scroll

theorem tally_elapse (n : Nat) (s : State) : tally (elapse n s) = tally s := rfl

/-- The µops of the sequences that are put in front of a cycle's rest (R127, R141, R155), and the other µops that add
nothing to the tally. -/
def isPlain : MicroOp → Bool
  | .uDiagChk | .uSweep2 | .uLed _ | .uRecv | .uLoop => false
  | _ => true

section
variable {s : State} {smp : Sample} {rest : List MicroOp}

theorem nextK_of_isPlain {u : MicroOp} (hu : isPlain u = true) (c : Config) :
    nextK u smp c (u :: rest) = if waits u smp then u :: rest else rest := by
  cases u with
  | uDiagChk | uSweep2 | uLed | uRecv | uLoop => exact absurd hu nofun
  | _ => rfl

/-- A plain µop holds or goes, and the report that `U_TX` sends was due. -/
theorem runMicroOp_of_isPlain {u : MicroOp} (hk : s.k = u :: rest) (hu : isPlain u = true) :
    ((runMicroOp u smp s).k = u :: rest ∨ (runMicroOp u smp s).k = rest) ∧ tally (runMicroOp u smp s) = tally s := by
  cases hw : waits u smp with
  | true =>
    rw [runMicroOp_of_waits hw]
    exact ⟨.inl hk, rfl⟩
  | false =>
    have hnext : nextK u smp s.cfg s.k = rest := by rw [hk, nextK_of_isPlain hu, hw]; rfl
    rw [runMicroOp_eq, hnext]
    refine ⟨.inr rfl, ?_⟩
    cases u with
    | uDiagChk | uSweep2 | uLed | uRecv | uLoop => exact absurd hu nofun
    | uTx => simp +arith [tally, writes, transmit, emit, txCount, ledCount, hk]
    | _ => simp [tally, writes, writeIdle, writeByte2, hk]

/-- R155: a check with the button down makes two more reports due. -/
theorem tally_diagChk (hk : s.k = .uDiagChk :: rest) :
    tally (runMicroOp .uDiagChk smp s) =
      { tally s with reports := (tally s).reports + 2 * if smp.diagN then 0 else 1 } := by
  rw [runMicroOp_eq]
  cases hd : smp.diagN with
  | true => simp [tally, writes, nextK, hd, hk]
  | false => simp +arith [tally, writes, nextK, hd, hk, diagOps]

theorem pulseSeq_of_sweepKey {c : Config} {keyN : Grid Bool} {sym : Byte} (hwf : c.wf = true)
    (h : sweepKey c keyN = some sym) : pulseSeq c sym = pulseOps sym := by
  obtain ⟨p, rfl, hkey, -⟩ := sweepKey_some h
  exact pulseSeq_of_class (classify_of_isKey hwf hkey)

/-- R153: a key in the second sweep makes two more reports due. -/
theorem tally_sweep2 (hwf : s.cfg.wf = true) (hk : s.k = .uSweep2 :: rest) :
    tally (runMicroOp .uSweep2 smp s) =
      { tally s with reports := (tally s).reports + 2 * if sweepKey s.cfg smp.keyN = none then 0 else 1 } := by
  rw [runMicroOp_eq]
  cases hkey : sweepKey s.cfg smp.keyN with
  | none => simp [tally, writes, nextK, hkey, hk]
  | some sym => simp +arith [tally, writes, nextK, hkey, hk, pulseSeq_of_sweepKey hwf hkey, pulseOps]

/-- R141, R143: the LED update requests three indicators, shows the lock bits, and makes one more report due if one is
set. -/
theorem tally_recv (hk : s.k = .uRecv :: rest) :
    tally (runMicroOp .uRecv smp s) =
      { reports := (tally s).reports + if smp.outReport &&& 0x07 = 0x00 then 0 else 1
        leds := (tally s).leds + 3
        num := smp.outReport.getLsbD 0, caps := smp.outReport.getLsbD 1, scroll := smp.outReport.getLsbD 2 } := by
  rw [runMicroOp_eq]
  have noReport : txCount (ledEvents smp.outReport) = 0 := rfl
  have threeLeds : ledCount (ledEvents smp.outReport) = 3 := rfl
  simp only [tally, writes, writeLocks, nextK, anyLock_eq, bne_iff_ne, ite_not, hk, List.tail_cons, txCount_append,
    ledCount_append, noReport, threeLeds, numBit, capsBit, scrollBit]
  split <;> simp [extraOps, Nat.add_assoc]

end

/-! ## The stages of a run that empties `K` -/

theorem runFor_keepsEnvironment {s t : State} {n : Nat} (h : runFor n s = .next t) :
    t.cfg = s.cfg ∧ t.inputs = s.inputs.drop n ∧ t.tick = s.tick + n := by
  induction n generalizing s with
  | zero =>
    cases h
    exact ⟨rfl, rfl, rfl⟩
  | succ n ih =>
    obtain ⟨s', hs⟩ := step_total s
    obtain ⟨hcfg, hinputs, htick⟩ := step_keepsEnvironment hs
    rw [runFor_succ n hs] at h
    obtain ⟨hcfg', hinputs', htick'⟩ := ih h
    exact ⟨hcfg'.trans hcfg, by rw [hinputs', hinputs, List.drop_drop, Nat.add_comm], by omega⟩

section
variable {s t : State} {n : Nat} (hq : quiet n s) (ht : runFor n s = .next t) (hend : t.k = [])
include hq ht hend

/-- While `K` is not empty the run goes on, by the head of `K`. -/
theorem runFor_head {i : Nat} {v : State} {u : MicroOp} {rest : List MicroOp} (hi : i ≤ n) (hv : runFor i s = .next v)
    (hk : v.k = u :: rest) : i < n ∧ runFor (i + 1) s = .next (runMicroOp u v.sample (elapse 1 v)) := by
  have hlt : i < n := by
    refine Nat.lt_of_le_of_ne hi ?_
    rintro rfl
    cases hv.symm.trans ht
    simp [hk] at hend
  obtain ⟨-, hinputs, htick⟩ := runFor_keepsEnvironment hv
  have hr : v.sample.rst = false := by
    rw [sample_eq_sampleAt, sampleAt_of_drop hinputs htick]
    exact hq i hlt
  exact ⟨hlt, by rw [runFor_add i 1 hv, runFor_one (step_of_head hr hk)]⟩

/-- Plain µops at the front of `K` are all gone at some step, and the tally is then what it was. -/
theorem exists_runFor_of_isPlain {us rest : List MicroOp} {i : Nat} {v : State} (hi : i ≤ n) (hv : runFor i s = .next v)
    (hk : v.k = us ++ rest) (hus : us.all isPlain = true) :
    ∃ j w, i ≤ j ∧ j ≤ n ∧ runFor j s = .next w ∧ w.k = rest ∧ tally w = tally v := by
  obtain ⟨left, hleft⟩ := Nat.exists_eq_add_of_le hi
  induction left generalizing i v us with
  | zero =>
    obtain rfl : n = i := hleft
    cases hv.symm.trans ht
    obtain ⟨-, rfl⟩ := List.append_eq_nil_iff.1 (hk.symm.trans hend)
    exact ⟨n, t, Nat.le_refl n, Nat.le_refl n, ht, hend, rfl⟩
  | succ left ih =>
    cases us with
    | nil => exact ⟨i, v, Nat.le_refl i, hi, hv, hk, rfl⟩
    | cons u us =>
      obtain ⟨hlt, hnext⟩ := runFor_head hq ht hend hi hv hk
      obtain ⟨hu, hrest⟩ : isPlain u = true ∧ us.all isPlain = true := by simpa using hus
      obtain ⟨hk', htally⟩ := runMicroOp_of_isPlain (smp := v.sample) (s := elapse 1 v) hk hu
      obtain ⟨j, w, hj, hjn, hw, hwk, hwt⟩ :
          ∃ j w, i + 1 ≤ j ∧ j ≤ n ∧ runFor j s = .next w ∧ w.k = rest ∧ tally w = tally _ := by
        obtain hk' | hk' := hk'
        · exact ih hlt hnext (us := u :: us) hk' hus (by omega)
        · exact ih hlt hnext hk' hrest (by omega)
      exact ⟨j, w, by omega, hjn, hw, hwk, hwt.trans htally⟩

/-- The head of `K` is executed, and the plain µops it leaves in front of `rest` are all gone at some later step. -/
theorem exists_runFor_of_head {u : MicroOp} {us rest' rest : List MicroOp} {i : Nat} {v : State} (hi : i ≤ n)
    (hv : runFor i s = .next v) (hk : v.k = u :: rest') (hnext : nextK u v.sample v.cfg (u :: rest') = us ++ rest)
    (hus : us.all isPlain = true) :
    ∃ j w, i < j ∧ j ≤ n ∧ runFor j s = .next w ∧ w.k = rest ∧
      tally w = tally (runMicroOp u v.sample (elapse 1 v)) := by
  obtain ⟨hlt, hstep⟩ := runFor_head hq ht hend hi hv hk
  have hk' : (runMicroOp u v.sample (elapse 1 v)).k = us ++ rest := by
    rw [runMicroOp_eq, ← hnext, ← hk]
    rfl
  exact exists_runFor_of_isPlain hq ht hend hlt hstep hk' hus

end

/-! ## `CYCLE` -/

theorem isPlain_pulseSeq (c : Config) (sym : Byte) : (pulseSeq c sym).all isPlain = true := by
  obtain h | h := pulseSeq_cases c sym <;> rw [h] <;> rfl

/-- R158: a run that empties a cycle's `K` comes to the check, to the second sweep and to `U_RECV`; the tally grows at
these three, and between them plain µops run. -/
theorem exists_cycleStages {s t : State} {n : Nat} (hk : s.k = cycleOps) (hwf : s.cfg.wf = true) (hq : quiet n s)
    (hbusy : ∀ j < n, ∀ u, runFor j s = .next u → u.k ≠ []) (ht : runFor n s = .next t) (hend : t.k = []) :
    ∃ (i₁ i₂ i₃ : Nat) (chk sweep recv : State),
      i₁ < i₂ ∧ i₂ < i₃ ∧ i₃ < n ∧
      runFor i₁ s = .next chk ∧ chk.k = [.uDiagChk, .uSweep1, .uSweep2, .uRecv] ∧
      runFor i₂ s = .next sweep ∧ sweep.k = [.uSweep2, .uRecv] ∧
      runFor i₃ s = .next recv ∧ recv.k = [.uRecv] ∧
      tally t =
        { reports := (tally s).reports + 2 * (if chk.sample.diagN then 0 else 1) +
            2 * (if sweepKey s.cfg sweep.sample.keyN = none then 0 else 1) +
            if recv.sample.outReport &&& 0x07 = 0x00 then 0 else 1
          leds := (tally s).leds + 3
          num := recv.sample.outReport.getLsbD 0
          caps := recv.sample.outReport.getLsbD 1
          scroll := recv.sample.outReport.getLsbD 2 } := by
  obtain ⟨i₁, chk, -, hi₁, hchk, hchkK, hchkT⟩ :=
    exists_runFor_of_isPlain (us := [.uWaitRdy]) hq ht hend (Nat.zero_le n) (runFor_zero s) hk rfl
  obtain ⟨i₂, sweep, hi₁₂, hi₂, hsweep, hsweepK, hsweepT⟩ :=
    exists_runFor_of_head (us := (if chk.sample.diagN then [] else diagOps) ++ [.uSweep1]) (rest := [.uSweep2, .uRecv])
      hq ht hend hi₁ hchk hchkK (by cases hd : chk.sample.diagN <;> simp [nextK, hd])
      (by cases chk.sample.diagN <;> rfl)
  obtain ⟨hcfg, -, -⟩ := runFor_keepsEnvironment hsweep
  obtain ⟨i₃, recv, hi₂₃, hi₃, hrecv, hrecvK, hrecvT⟩ :=
    exists_runFor_of_head (us := ((sweepKey sweep.cfg sweep.sample.keyN).map (pulseSeq sweep.cfg)).getD [])
      hq ht hend hi₂ hsweep hsweepK rfl
      (by cases sweepKey sweep.cfg sweep.sample.keyN with
        | none => rfl
        | some sym => exact isPlain_pulseSeq sweep.cfg sym)
  obtain ⟨i₄, t', hi₃₄, hi₄, ht', ht'K, ht'T⟩ :=
    exists_runFor_of_head (us := if anyLock recv.sample.outReport then extraOps else []) (rest := [])
      hq ht hend hi₃ hrecv hrecvK (by cases hb : anyLock recv.sample.outReport <;> simp [nextK, hb])
      (by cases anyLock recv.sample.outReport <;> rfl)
  obtain rfl : i₄ = n := Nat.le_antisymm hi₄ (Nat.le_of_not_lt fun h => hbusy i₄ h t' ht' ht'K)
  cases ht'.symm.trans ht
  refine ⟨i₁, i₂, i₃, chk, sweep, recv, hi₁₂, hi₂₃, hi₃₄, hchk, hchkK, hsweep, hsweepK, hrecv, hrecvK, ?_⟩
  have diag := hsweepT.trans (tally_diagChk (s := elapse 1 chk) hchkK)
  have key := hrecvT.trans (tally_sweep2 (s := elapse 1 sweep) (hcfg ▸ hwf) hsweepK)
  have leds := ht'T.trans (tally_recv (s := elapse 1 recv) hrecvK)
  rw [leds, tally_elapse, key, tally_elapse, diag, tally_elapse, hchkT, elapse_cfg, hcfg]

/-- Settles O40: at the end of the cycle no report is due, so its tally counts the reports sent. -/
theorem cycleReportCount : Obligations.CycleReportCount := by
  intro s t n _ hwf hq hbusy ht hend
  obtain ⟨i₁, i₂, i₃, chk, sweep, recv, h₁₂, h₂₃, h₃, hchk, hchkK, hsweep, hsweepK, hrecv, hrecvK, htally⟩ :=
    exists_cycleStages (s := { s with k := cycleOps }) rfl hwf hq hbusy ht hend
  refine ⟨i₁, i₂, i₃, chk, sweep, recv, h₁₂, h₂₃, h₃, hchk, hchkK, hsweep, hsweepK, hrecv, hrecvK, ?_⟩
  have hreports := congrArg Tally.reports htally
  simp only [tally, hend] at hreports
  exact ⟨hreports, congrArg Tally.leds htally, congrArg Tally.num htally, congrArg Tally.caps htally,
    congrArg Tally.scroll htally⟩

end Sys2Proof.Machine
end

section
/-! SUPPORT. Proofs of 60_exceptions.md: no step stops the block (R180, R183). -/

namespace Sys2Proof.Machine

/-- Every number of steps has a next state, as every single step has. -/
theorem runFor_total (n : Nat) : ∀ s : State, ∃ t, runFor n s = .next t := by
  induction n with
  | zero => exact fun s => ⟨s, runFor_zero s⟩
  | succ n ih =>
    intro s
    obtain ⟨s', hs⟩ := step_total s
    rw [runFor_succ n hs]
    exact ih s'

/-- Settles O11: a run never stops, and every step of it, a reset or a refused word too, moves the counter on by one. -/
theorem everyRunContinues : Obligations.EveryRunContinues := by
  intro n s
  obtain ⟨t, ht⟩ := runFor_total n s
  obtain ⟨-, -, htick⟩ := runFor_keepsEnvironment ht
  exact ⟨t, ht, htick⟩

end Sys2Proof.Machine
end

section
/-! SUPPORT. Proofs of 70_reset_and_hazards.md: a reset at any step (R200), and an acknowledgment that never comes
(R207). -/

namespace Sys2Proof.Machine

/-! ## Reset (R200, R201) -/

/-- `boot` builds no block but the one right after reset. -/
theorem eq_atReset_of_boot {c : Config} {inputs : List Sample} {t : State} (h : boot c inputs = .next t) :
    t = State.atReset c inputs 0 := by
  by_cases hwf : c.wf = true
  · cases (boot_of_wf hwf inputs).symm.trans h
    rfl
  · cases (boot_of_not_wf hwf inputs).symm.trans h

/-- Settles O9: a step with a reset and `boot` both end in a `State.atReset`, whose registers are clear. -/
theorem resetWinsOverEverything : Obligations.ResetWinsOverEverything := by
  unfold Obligations.ResetWinsOverEverything
  intro cleared
  have cleared_atReset : ∀ c inputs n, cleared (State.atReset c inputs n) := fun _ _ _ =>
    ⟨rfl, rfl, rfl, rfl, rfl, rfl, rfl, rfl, rfl, rfl⟩
  refine ⟨fun s hr => ⟨_, step_of_rst hr, cleared_atReset _ _ _, List.nil_prefix, rfl, rfl, rfl⟩,
    fun c inputs t h => ?_⟩
  rw [eq_atReset_of_boot h]
  exact cleared_atReset c inputs 0

/-! ## A pulse that is not acknowledged (R207) -/

/-- A run of one step or more does not see the output pulses of the step before it. -/
theorem runFor_elapse_zero (n : Nat) (s : State) : runFor (n + 1) (elapse 0 s) = runFor (n + 1) s := by
  obtain ⟨t, hs⟩ := step_total s
  rw [runFor_succ n hs, runFor_succ n ((step_elapse_zero s).trans hs)]

/-- A report is sent at step `a`, and what follows does not see the pulse it leaves on `tx_valid`. -/
theorem Reaches.after_tx {rest : List MicroOp} {s t : State} {a b N : Nat}
    (h : Reaches (a + 1) b { s with k := rest, h := s.h ++ [.tx s.r] } t) (hk : s.k = .uTx :: rest) (hq : quiet N s)
    (hb : a + 1 < b := by omega) (hN : b ≤ N := by omega) : Reaches a b s t := by
  obtain ⟨m, rfl, hrun⟩ := h
  obtain ⟨n, rfl⟩ : ∃ n, m = n + 1 := Nat.exists_eq_add_one.2 (by omega)
  refine ⟨n + 1 + 1, by omega, ?_⟩
  rw [runFor_succ _ (step_of_tx (rst_elapse hq (by omega)) hk), elapse_elapse, ← runFor_elapse_zero]
  exact hrun

/-- The report is sent at step `a`, and at none of the `d + 1` steps after it is there an acknowledgment. -/
theorem reaches_unackedExchange {rest : List MicroOp} {s : State} {a d N : Nat} (hk : s.k = .uTx :: .uWaitAck :: rest)
    (hq : quiet N s) (noAck : ∀ j < d + 1, (s.sampleAt (a + 1 + j)).ack = false) (hN : a + 1 + (d + 1) ≤ N) :
    Reaches a (a + 1 + (d + 1)) s { s with k := .uWaitAck :: rest, h := s.h ++ [.tx s.r] } := by
  have wait := reaches_hold (u := .uWaitAck) (s := { s with k := .uWaitAck :: rest, h := s.h ++ [.tx s.r] }) rfl hq
    (d + 1) (fun j hj => congrArg not (noAck j hj)) hN
  exact wait.after_tx hk hq

/-- Settles O27: the key-down report is written and sent, and the wait behind it never ends. -/
theorem pulseWithoutAckIsStuck : Obligations.PulseWithoutAckIsStuck := by
  refine fun s sym b0 b2 n hk hinv hf hq noAck => ⟨_, exec_of_idle _ hk, ?_⟩
  rw [expansion_pulse_of_format hf]
  rw [show 3 + n = 1 + 1 + (n + 1) by omega] at hq noAck ⊢
  have format : Reaches 0 1 { s with k := pulseOps sym } _ := reaches_fmt rfl hinv hf hq
  have stuck := format.trans (reaches_unackedExchange rfl hq (fun j hj => noAck _ (by omega)) le_rfl)
  exact stuck.runFor_eq (by omega)

end Sys2Proof.Machine
end
